-- ==== Sys2Proof/Word.lean ====
section
/-! DEFINITION. The word types of the Bus Shadow Interface (00_scope.md R9, R11): unsigned bit vectors, bit 0 the
least significant. Arithmetic on them wraps, which is the spec's wrap16 and wrap32. -/

namespace Sys2Proof

/-- `Byte`, 8-bit unsigned (00_scope.md R11). -/
abbrev Byte := BitVec 8

/-- `Addr`, 16-bit unsigned: a shadow address, and an event record's location `Loc` (00_scope.md R11). -/
abbrev Addr := BitVec 16

/-- `Word32`, 32-bit unsigned (00_scope.md R11). -/
abbrev Word32 := BitVec 32

/-- `Pixel`, an 8-bit colour value (00_scope.md R11). -/
abbrev Pixel := BitVec 8

/-- `Perm`, a permission tag as 30_encoding.md R96 encodes it: bit 0 READ, bit 1 WRITE, bit 2 SNOOP. -/
abbrev Perm := BitVec 3

/-- A transaction word T (30_encoding.md R90). -/
abbrev Txn := BitVec 64

end Sys2Proof
end

