-- ==== Sys2Proof/Syntax.lean ====
section
/-! DEFINITION. The operations of the block: one constructor per row of the opcode table (30_encoding.md R92), and the
agents that issue them (00_scope.md R6). -/

namespace Sys2Proof

/-- The issuing agents (00_scope.md R6): the observed CPU's bus, the software, the event-drain interrupt context, the
render loop, the video-timing driver, the sample timer. R6 says "seven" and names these six (log 8). -/
inductive Agent where
  | bus | sw | irq | rend | vid | aud
  deriving DecidableEq, Repr

/-- One operation (30_encoding.md R92), its operands at the widths of R91. -/
inductive Instr where
  /-- BUS_WR (40_shadowbus.md R130). -/
  | busWr (addr : Addr) (data : Byte)
  /-- BUS_RD (40_shadowbus.md R133). -/
  | busRd (addr : Addr)
  /-- CAP_PAUSE (40_shadowbus.md R135). -/
  | capPause
  /-- CAP_RESUME (40_shadowbus.md R136). -/
  | capResume
  /-- SET_IRQ_ENABLE (60_exceptions.md R387). -/
  | setIrqEnable (v : Bool)
  /-- SET_PERM (40_shadowbus.md R137); `len` is A[16:0], 0..131071. -/
  | setPerm (flags : Perm) (base : Addr) (len : BitVec 17)
  /-- SHADOW_RD (40_shadowbus.md R140). -/
  | shadowRd (addr : Addr)
  /-- SHADOW_WR (40_shadowbus.md R141). -/
  | shadowWr (addr : Addr) (data : Byte)
  /-- POLL_EVENT (41_eventstream.md R164). -/
  | pollEvent
  /-- EVENT_DISPATCH (45_audio.md R345). -/
  | eventDispatch
  /-- RENDER_LINE, line form (42_scanline_pipeline.md R191). -/
  | renderLine (line : Word32)
  /-- RENDER_LINE, vsync form (42_scanline_pipeline.md R194). -/
  | renderLineVsync
  /-- RENDER_STEP (42_scanline_pipeline.md R195). -/
  | renderStep
  /-- POOL_READ (42_scanline_pipeline.md R201). -/
  | poolRead (slot : Byte) (x : BitVec 16)
  /-- SET_RENDERER (42_scanline_pipeline.md R205); `sel = 3` spells no operation (30_encoding.md R93). -/
  | setRenderer (sel : BitVec 2)
  /-- SET_REVEAL (44_teletext.md R306). -/
  | setReveal (v : Bool)
  /-- AUDIO_INIT (45_audio.md R341). -/
  | audioInit
  /-- AUDIO_TICK (45_audio.md R351). -/
  | audioTick
  /-- AUDIO_RESET (45_audio.md R350). -/
  | audioReset
  deriving DecidableEq, Repr

end Sys2Proof
end

