-- ==== Sys2Proof/Machine/Operands.lean ====
section
/-! DEFINITION. The fields of a transaction word (30_encoding.md R90), every operand slice of R91, and the agent R92
names for each operation. -/

namespace Sys2Proof

/-- OP = T[63:56] (30_encoding.md R90). -/
def opField (w : Txn) : BitVec 8 := w.extractLsb' 56 8
/-- F = T[55:48] (30_encoding.md R90). -/
def fField (w : Txn) : BitVec 8 := w.extractLsb' 48 8
/-- B = T[47:32] (30_encoding.md R90). -/
def bField (w : Txn) : BitVec 16 := w.extractLsb' 32 16
/-- A = T[31:0] (30_encoding.md R90). -/
def aField (w : Txn) : BitVec 32 := w.extractLsb' 0 32

/-- `addr = A[15:0]`; `x` has the same slice (30_encoding.md R91). -/
def addrOperand (w : Txn) : BitVec 16 := (aField w).extractLsb' 0 16
/-- `data = B[7:0]`; `slot` has the same slice (30_encoding.md R91). -/
def dataOperand (w : Txn) : BitVec 8 := (bField w).extractLsb' 0 8
/-- `base = B[15:0]` (30_encoding.md R91). -/
def baseOperand (w : Txn) : BitVec 16 := bField w
/-- `len = A[16:0]` (30_encoding.md R91). -/
def lenOperand (w : Txn) : BitVec 17 := (aField w).extractLsb' 0 17
/-- `line = A[31:0]` (30_encoding.md R91). -/
def lineOperand (w : Txn) : BitVec 32 := aField w
/-- `flags = F[2:0]` (30_encoding.md R91). -/
def flagsOperand (w : Txn) : BitVec 3 := (fField w).extractLsb' 0 3
/-- `sel = F[1:0]` (30_encoding.md R91). -/
def selOperand (w : Txn) : BitVec 2 := (fField w).extractLsb' 0 2
/-- `v = F[0]`; `vs` has the same slice (30_encoding.md R91). -/
def vOperand (w : Txn) : Bool := (fField w).getLsbD 0

/-- The agent 30_encoding.md R92 names for an operation: the only one it is admitted from (R95). -/
def Instr.agent : Instr → Agent
  | .busWr _ _ | .busRd _ => .bus
  | .capPause | .capResume | .setIrqEnable _ | .setPerm _ _ _ | .shadowRd _ | .shadowWr _ _ | .setRenderer _
  | .setReveal _ | .audioInit => .sw
  | .pollEvent | .eventDispatch | .audioReset => .irq
  | .renderStep => .rend
  | .renderLine _ | .renderLineVsync | .poolRead _ _ => .vid
  | .audioTick => .aud

end Sys2Proof
end

