-- ==== Sys2Proof/WellFormed.lean ====
section
/-! DEFINITION. Which terms of `Instr` spell an operation. The operand widths of the constructors are the encoding's own
(30_encoding.md R91), so the one condition left is R93's: a SET_RENDERER with `sel = 3` spells no operation. -/

namespace Sys2Proof

/-- The instruction can be spelt by a transaction word (30_encoding.md R93, R101). -/
def Instr.wellFormed : Instr → Bool
  | .setRenderer sel => sel != 3#2
  | .busWr _ _ | .busRd _ | .capPause | .capResume | .setIrqEnable _ | .setPerm _ _ _ | .shadowRd _ | .shadowWr _ _
  | .pollEvent | .eventDispatch | .renderLine _ | .renderLineVsync | .renderStep | .poolRead _ _ | .setReveal _
  | .audioInit | .audioTick | .audioReset => true

end Sys2Proof
end

