-- ==== Sys2Proof/Decode.lean ====
section
/-! DEFINITION. The decoder, total on every 64-bit word and rejecting by name (30_encoding.md R90-R94), the encoder
written from the same table (R92, R102), and the opcode table's match and mask numbers (spec/opcode_table.json). -/

namespace Sys2Proof

/-- Why a word spells no operation. -/
inductive Invalid where
  /-- The OP value is reserved (30_encoding.md R94). -/
  | reservedOp
  /-- A must-be-zero bit is 1 (30_encoding.md R93). -/
  | mustBeZero
  /-- SET_RENDERER with `sel = 3` (30_encoding.md R93). -/
  | reservedSelector
  deriving DecidableEq, Repr

/-- What a word decodes to: one operation, or `Invalid` (30_encoding.md R94). -/
inductive Decoded where
  | op (i : Instr)
  | invalid (why : Invalid)
  deriving DecidableEq, Repr

/-- The operation `i` where the word's must-be-zero bits are all 0 (30_encoding.md R93). -/
def ifZero (zero : Bool) (i : Instr) : Decoded :=
  if zero then .op i else .invalid .mustBeZero

/-- F, B and A are all zero: an operation with no operand (30_encoding.md R92). -/
def noOperands (w : Txn) : Bool := fField w == 0#8 && bField w == 0#16 && aField w == 0#32

/-- A[31:16] is zero (30_encoding.md R92). -/
def aHighZero (w : Txn) : Bool := (aField w).extractLsb' 16 16 == 0#16

/-- B[15:8] is zero (30_encoding.md R92). -/
def bHighZero (w : Txn) : Bool := (bField w).extractLsb' 8 8 == 0#8

/-- F[7:1], B and A are zero: a one-bit `v` is the only operand (30_encoding.md R92). -/
def onlyV (w : Txn) : Bool := (fField w).extractLsb' 1 7 == 0#7 && bField w == 0#16 && aField w == 0#32

/-- The decoder (30_encoding.md R92-R94). -/
def decode (w : Txn) : Decoded :=
  match (opField w).toNat with
  | 0x01 => ifZero (fField w == 0#8 && bHighZero w && aHighZero w) (.busWr (addrOperand w) (dataOperand w))
  | 0x02 => ifZero (fField w == 0#8 && bField w == 0#16 && aHighZero w) (.busRd (addrOperand w))
  | 0x03 => ifZero (noOperands w) .capPause
  | 0x04 => ifZero (noOperands w) .capResume
  | 0x05 => ifZero (onlyV w) (.setIrqEnable (vOperand w))
  | 0x10 =>
    ifZero ((fField w).extractLsb' 3 5 == 0#5 && (aField w).extractLsb' 17 15 == 0#15)
      (.setPerm (flagsOperand w) (baseOperand w) (lenOperand w))
  | 0x11 => ifZero (fField w == 0#8 && bField w == 0#16 && aHighZero w) (.shadowRd (addrOperand w))
  | 0x12 => ifZero (fField w == 0#8 && bHighZero w && aHighZero w) (.shadowWr (addrOperand w) (dataOperand w))
  | 0x20 => ifZero (noOperands w) .pollEvent
  | 0x21 => ifZero (noOperands w) .eventDispatch
  | 0x30 =>
    if vOperand w then ifZero (onlyV w) .renderLineVsync
    else ifZero ((fField w).extractLsb' 1 7 == 0#7 && bField w == 0#16) (.renderLine (lineOperand w))
  | 0x31 => ifZero (noOperands w) .renderStep
  | 0x32 => ifZero (fField w == 0#8 && bHighZero w && aHighZero w) (.poolRead (dataOperand w) (addrOperand w))
  | 0x33 =>
    if (fField w).extractLsb' 2 6 == 0#6 && bField w == 0#16 && aField w == 0#32 then
      if selOperand w == 3#2 then .invalid .reservedSelector else .op (.setRenderer (selOperand w))
    else .invalid .mustBeZero
  | 0x34 => ifZero (onlyV w) (.setReveal (vOperand w))
  | 0x40 => ifZero (noOperands w) .audioInit
  | 0x41 => ifZero (noOperands w) .audioTick
  | 0x42 => ifZero (noOperands w) .audioReset
  | _ => .invalid .reservedOp

/-- A transaction word from its four fields (30_encoding.md R90). -/
def word (op f : BitVec 8) (b : BitVec 16) (a : BitVec 32) : Txn := op ++ f ++ b ++ a

/-- A one-bit flag as the F field (30_encoding.md R91). -/
def flagField (v : Bool) : BitVec 8 := (BitVec.ofBool v).setWidth 8

/-- The encoder: the word of an operation (30_encoding.md R92, R102). -/
def encode : Instr → Txn
  | .busWr addr data => word 0x01 0 (data.setWidth 16) (addr.setWidth 32)
  | .busRd addr => word 0x02 0 0 (addr.setWidth 32)
  | .capPause => word 0x03 0 0 0
  | .capResume => word 0x04 0 0 0
  | .setIrqEnable v => word 0x05 (flagField v) 0 0
  | .setPerm flags base len => word 0x10 (flags.setWidth 8) base (len.setWidth 32)
  | .shadowRd addr => word 0x11 0 0 (addr.setWidth 32)
  | .shadowWr addr data => word 0x12 0 (data.setWidth 16) (addr.setWidth 32)
  | .pollEvent => word 0x20 0 0 0
  | .eventDispatch => word 0x21 0 0 0
  | .renderLine line => word 0x30 0 0 line
  | .renderLineVsync => word 0x30 1 0 0
  | .renderStep => word 0x31 0 0 0
  | .poolRead slot x => word 0x32 0 (slot.setWidth 16) (x.setWidth 32)
  | .setRenderer sel => word 0x33 (sel.setWidth 8) 0 0
  | .setReveal v => word 0x34 (flagField v) 0 0
  | .audioInit => word 0x40 0 0 0
  | .audioTick => word 0x41 0 0 0
  | .audioReset => word 0x42 0 0 0

/-- One row of spec/opcode_table.json: its mnemonic, match and mask. -/
structure TableRow where
  mnemonic : String
  pattern  : Txn
  mask     : Txn
  deriving DecidableEq, Repr

/-- The opcode table (spec/opcode_table.json), in its order. -/
def opcodeTable : List TableRow := [
  ⟨"BUS_WR", 0x0100000000000000, 0xFFFFFF00FFFF0000⟩,
  ⟨"BUS_RD", 0x0200000000000000, 0xFFFFFFFFFFFF0000⟩,
  ⟨"CAP_PAUSE", 0x0300000000000000, 0xFFFFFFFFFFFFFFFF⟩,
  ⟨"CAP_RESUME", 0x0400000000000000, 0xFFFFFFFFFFFFFFFF⟩,
  ⟨"SET_IRQ_ENABLE", 0x0500000000000000, 0xFFFEFFFFFFFFFFFF⟩,
  ⟨"SET_PERM", 0x1000000000000000, 0xFFF80000FFFE0000⟩,
  ⟨"SHADOW_RD", 0x1100000000000000, 0xFFFFFFFFFFFF0000⟩,
  ⟨"SHADOW_WR", 0x1200000000000000, 0xFFFFFF00FFFF0000⟩,
  ⟨"POLL_EVENT", 0x2000000000000000, 0xFFFFFFFFFFFFFFFF⟩,
  ⟨"EVENT_DISPATCH", 0x2100000000000000, 0xFFFFFFFFFFFFFFFF⟩,
  ⟨"RENDER_LINE", 0x3000000000000000, 0xFFFFFFFF00000000⟩,
  ⟨"RENDER_LINE_VSYNC", 0x3001000000000000, 0xFFFFFFFFFFFFFFFF⟩,
  ⟨"RENDER_STEP", 0x3100000000000000, 0xFFFFFFFFFFFFFFFF⟩,
  ⟨"POOL_READ", 0x3200000000000000, 0xFFFFFF00FFFF0000⟩,
  ⟨"SET_RENDERER", 0x3300000000000000, 0xFFFCFFFFFFFFFFFF⟩,
  ⟨"SET_REVEAL", 0x3400000000000000, 0xFFFEFFFFFFFFFFFF⟩,
  ⟨"AUDIO_INIT", 0x4000000000000000, 0xFFFFFFFFFFFFFFFF⟩,
  ⟨"AUDIO_TICK", 0x4100000000000000, 0xFFFFFFFFFFFFFFFF⟩,
  ⟨"AUDIO_RESET", 0x4200000000000000, 0xFFFFFFFFFFFFFFFF⟩]

/-- The place of an operation's row in `opcodeTable`. -/
def Instr.tableIndex : Instr → Nat
  | .busWr _ _ => 0 | .busRd _ => 1 | .capPause => 2 | .capResume => 3 | .setIrqEnable _ => 4 | .setPerm _ _ _ => 5
  | .shadowRd _ => 6 | .shadowWr _ _ => 7 | .pollEvent => 8 | .eventDispatch => 9 | .renderLine _ => 10
  | .renderLineVsync => 11 | .renderStep => 12 | .poolRead _ _ => 13 | .setRenderer _ => 14 | .setReveal _ => 15
  | .audioInit => 16 | .audioTick => 17 | .audioReset => 18

/-- A word matches a row of the table: its bits under the mask are the row's pattern. -/
def TableRow.covers (r : TableRow) (w : Txn) : Bool := w &&& r.mask == r.pattern

/-- The instruction the decoder reads from a word whose bits are `w`, numbered as spec/opcode_table.json numbers them:
one 64-bit transaction word, bits at and above `nbits` zero (30_encoding.md R90). -/
def decodeTableWord (nbits w : Nat) : Option Instr :=
  match decode (BitVec.ofNat 64 (w % 2 ^ nbits)) with
  | .op i => some i
  | .invalid _ => none

end Sys2Proof
end

