-- ==== Sys2Proof/Config.lean ====
section
/-! DEFINITION. The configuration record `Cfg` of 00_scope.md R7, the named constants the spec fixes, the fatal codes
of 60_exceptions.md R381, and the synthesizer's opaque functions (45_audio.md R355).

Every OPEN parameter of 92_eei_decisions.md is a field of `Cfg`; no rule gives it a value and no theorem that quantifies
over states assumes one. Cfg is plain data, so the parameter TABLES are finite lists of (key, value): a table over a
finite key range can be listed whole, and what an unlisted key answers is only the representation's filler (DESIGN
CHOICE, log 18). -/

namespace Sys2Proof

/-! ## Constants the spec fixes -/

namespace Config

/-- WINDOW: the number of shadow cells (00_scope.md R7). -/
def window : Nat := 65536

/-- TT_COLS (44_teletext.md R280). -/
def ttCols : Nat := 40

/-- TT_SUBLINES: physical lines of a teletext row (44_teletext.md R280). -/
def ttSublines : Nat := 20

/-- TT_ROWS (44_teletext.md R280). -/
def ttRows : Nat := 25

/-- TT_CELL_W: dots of a teletext cell (00_scope.md R7). -/
def ttCellW : Nat := 12

/-- FLASH_PERIOD, frames of one flash period (44_teletext.md R297, fixed by D30). -/
def flashPeriod : Nat := 64

/-- FLASH_BLANK, blank frames at the start of each flash period (44_teletext.md R297, fixed by D30). -/
def flashBlank : Nat := 21

/-- SENTINEL, the value of the reset pseudo-write: 9 bits, above every register value (30_encoding.md R98). -/
def sentinel : BitVec 9 := 0x100#9

end Config

/-! ## Parameter types -/

/-- A finite parameter table: (key, value) pairs. -/
abbrev Table (α : Type) := List (Nat × α)

/-- `h_res` of a graphics geometry: one of 32, 64, 128, 256 logical pixels (43_scanline_decode.md R233). -/
inductive HRes where
  | r32 | r64 | r128 | r256
  deriving DecidableEq, Repr, Inhabited

/-- The number of logical pixels an `h_res` class names. -/
def HRes.pixels : HRes → Nat
  | .r32 => 32 | .r64 => 64 | .r128 => 128 | .r256 => 256

/-- `bpp` of a graphics geometry: 1 or 2 bits per pixel (43_scanline_decode.md R233). -/
inductive Depth where
  | one | two
  deriving DecidableEq, Repr, Inhabited

/-- The number of bits per pixel. -/
def Depth.bits : Depth → Nat
  | .one => 1 | .two => 2

/-- A graphics geometry `g = (h_res, bpp, div)` (43_scanline_decode.md R233). R233 gives div in 1..255, so div is a byte; an
entry with div = 0, which R233 excludes, acts as div = 1 under R236 (DESIGN CHOICE, log 18). -/
structure Geometry where
  hRes : HRes
  bpp  : Depth
  div  : Byte
  deriving DecidableEq, Repr, Inhabited

/-- `g.stride = h_res * bpp / 8` bytes (43_scanline_decode.md R233). -/
def Geometry.stride (g : Geometry) : Nat := g.hRes.pixels * g.bpp.bits / 8

/-- What CHAR_DECODE answers for a character byte (43_scanline_decode.md R243). `bank = true` is glyph bank 1. -/
inductive CharCell where
  | alpha (bank : Bool) (idx : Byte) (inv : Bool)
  | semi4 (bits : BitVec 4) (colour : Pixel)
  | semi6 (bits : BitVec 6) (colour : Pixel)
  deriving DecidableEq, Repr, Inhabited

/-- Parameters of the VDG renderer (00_scope.md R7). Table keys: `modeTable` by nibble; `charDecode` by byte;
`glyph` by `s * 512 + bank * 256 + idx`; `textFg`, `textBg` by css; `pal2` by `css * 2 + f`; `pal4` by `css * 4 + f`. -/
structure VdgCfg where
  vramBase   : Addr
  modeAddr   : Addr
  modeShift  : Nat
  cssAddr    : Addr
  cssBit     : Nat
  modeTable  : Table Geometry
  charDecode : Table CharCell
  glyph      : Table Byte
  textFg     : Table Pixel
  textBg     : Table Pixel
  pal2       : Table Pixel
  pal4       : Table Pixel
  semiBg     : Pixel
  border     : Pixel
  vStart     : Nat
  vLines     : Nat
  hStart     : Nat
  xscale     : Nat
  deriving DecidableEq, Repr

/-- Parameters of the teletext engine and its CRTC-style latch (00_scope.md R7). Table keys: `glyph` by
`erow * 128 + code`; `mosaic` by `erow * 256 + code[5:0] * 4 + sep * 2 + low`; `palette` by colour number. -/
structure TtCfg where
  base            : Addr
  vStart          : Nat
  hStart          : Nat
  xscale          : Nat
  border          : Pixel
  glyph           : Table (BitVec 12)
  mosaic          : Table (BitVec 12)
  palette         : Table Pixel
  crtcAddr        : Addr
  crtcData        : Addr
  crtcStartHi     : Byte
  crtcStartLo     : Byte
  crtcCursorHi    : Byte
  crtcCursorLo    : Byte
  cursorPeriod    : Nat
  cursorOn        : Nat
  cursorBandStart : Nat
  deriving DecidableEq, Repr

/-- Parameters of the Attributed 80-column mode (43_scanline_decode.md R255-R258). Table keys: `glyph` by
`s * 256 + ch`; `pal` by `set * 8 + colour`. -/
structure A80Cfg where
  base     : Addr
  attrBase : Addr
  ctrl0    : Addr
  ctrl1    : Addr
  vStart   : Nat
  rows     : Nat
  gh       : Nat
  hStart   : Nat
  ulRow    : Nat
  glyph    : Table Byte
  pal      : Table Pixel
  border   : Pixel
  deriving DecidableEq, Repr

/-- Parameters of the audio consumer (00_scope.md R7). `sampleRate` is read by no rule (60_exceptions.md R393). -/
structure AudioCfg where
  base            : Addr
  woLen           : Nat
  roLen           : Nat
  sampleRate      : Nat
  cyclesPerSample : Nat
  deriving DecidableEq, Repr

/-- The configuration record (00_scope.md R7). `evsCap` is the EventStream capacity C itself, so that the capacity
check of 70_reset_and_hazards.md R411 has all three queues to test (DESIGN CHOICE, log 16). `linePixels` is LINE_PIXELS: R7
says "LINE_PIXELS >= widest active width", R8 lists no such condition, and TC0 breaks it for the 80-column mode, so it is neither
checked nor assumed, and a line is cut at LINE_PIXELS (DESIGN CHOICE, log 27). -/
structure Cfg where
  evsCap     : Nat
  snoopEvent : Bool
  nPool      : Nat
  frameLines : Nat
  rqCap      : Nat
  linePixels : Nat
  afifoCap   : Nat
  vdg        : VdgCfg
  tt         : TtCfg
  a80        : A80Cfg
  audio      : AudioCfg
  deriving DecidableEq, Repr

/-! ## Fatal codes (60_exceptions.md R381) -/

/-- The queue a CAPACITY code names. -/
inductive QueueName where
  | evs | rq | afifo
  deriving DecidableEq, Repr

/-- The failing condition a CONFIG code names: the conditions of 00_scope.md R8 after the capacities, in its order,
and 45_audio.md R340's `AUDIO_WO_LEN >= 1` (log 17). -/
inductive ConfigCond where
  | nPoolRange            -- N_POOL in {2, 3, 4}
  | frameLinesMultiple    -- FRAME_LINES mod N_POOL = 0
  | frameLinesAtLeast     -- FRAME_LINES >= N_POOL
  | cursorPeriodPowerOf2  -- CURSOR_PERIOD a power of two, at most 2^32
  | flashBlankInPeriod    -- FLASH_BLANK <= FLASH_PERIOD
  | flashPeriodDivides    -- FLASH_PERIOD divides 2^32
  | audioRangeInWindow    -- AUDIO_BASE + AUDIO_WO_LEN + AUDIO_RO_LEN <= 65536
  | audioWoLenPositive    -- AUDIO_WO_LEN >= 1
  deriving DecidableEq, Repr

/-- `FatalCode` (60_exceptions.md R381): what is recorded when a configuration error is detected. -/
inductive FatalCode where
  | permRange (base len : Nat)
  | capacity  (q : QueueName)
  | config    (p : ConfigCond)
  deriving DecidableEq, Repr

/-! ## The synthesizer (45_audio.md R355; 00_scope.md R5 item 5)

Its algorithm is outside the block. Its state is a register mirror and an opaque code for everything else; its functions
are opaque constants with no body, so nothing can be proved about their values (log 14). -/

/-- `SynthState`: the register file's mirror and an opaque code of the rest (10_state.md R38; DESIGN CHOICE, log 14). -/
structure SynthState where
  mirror : List Byte
  core   : Nat
  deriving DecidableEq, Repr, Inhabited

/-- `Sample`: an opaque sample value; no format is assumed (45_audio.md R355). -/
structure Sample where
  code : Nat
  deriving DecidableEq, Repr, Inhabited

namespace Config

/-- SYNTH_RESET (45_audio.md R355). -/
opaque synthReset : SynthState

/-- What SYNTH_RESET_VOICES leaves of everything that is not the register mirror (45_audio.md R353, R355). -/
opaque synthVoicesCleared : SynthState → Nat

/-- SYNTH_WRITE (45_audio.md R355). -/
opaque synthWrite : SynthState → Nat → Byte → SynthState

/-- SYNTH_CLOCK (45_audio.md R355). -/
opaque synthClock : SynthState → Nat → SynthState × Sample

/-- SYNTH_STATUS (45_audio.md R355). -/
opaque synthStatus : SynthState → Nat → Byte

/-- PWM_LEVEL (45_audio.md R355). -/
opaque pwmLevel : Sample → Word32

end Config

end Sys2Proof
end

