-- ==== Sys2Proof/Machine/Check.lean ====
section
/-! DEFINITION. The configuration check at reset (00_scope.md R8, 70_reset_and_hazards.md R411). -/

namespace Sys2Proof

/-- `n` is a power of two. -/
def isPow2 (n : Nat) : Bool := n != 0 && n &&& (n - 1) == 0

/-- The EventStream capacity is 2^k with 0 <= k <= 31 (41_eventstream.md R160; log 16). -/
def Cfg.evsCapOk (c : Cfg) : Bool := isPow2 c.evsCap && decide (c.evsCap ≤ 2 ^ 31)

/-- The capacity checks in the order R411 gives: EventStream, request queue, audio FIFO. -/
def Cfg.capacityFault (c : Cfg) : Option QueueName :=
  if !c.evsCapOk then some .evs
  else if !isPow2 c.rqCap then some .rq
  else if !isPow2 c.afifoCap then some .afifo
  else none

/-- The other conditions of 00_scope.md R8, in the order listed there, then 45_audio.md R340's (log 17). That LINE_PIXELS is at
least the widest active width (R7) is not among them and is not checked (DESIGN CHOICE, log 27). -/
def Cfg.conditionFault (c : Cfg) : Option ConfigCond :=
  if !(c.nPool == 2 || c.nPool == 3 || c.nPool == 4) then some .nPoolRange
  else if c.frameLines % c.nPool != 0 then some .frameLinesMultiple
  else if c.frameLines < c.nPool then some .frameLinesAtLeast
  else if !(isPow2 c.tt.cursorPeriod && decide (c.tt.cursorPeriod ≤ 2 ^ 32)) then some .cursorPeriodPowerOf2
  else if Config.flashPeriod < Config.flashBlank then some .flashBlankInPeriod
  else if 2 ^ 32 % Config.flashPeriod != 0 then some .flashPeriodDivides
  else if Config.window < c.audio.base.toNat + c.audio.woLen + c.audio.roLen then some .audioRangeInWindow
  else if c.audio.woLen == 0 then some .audioWoLenPositive
  else none

/-- The first failing check, CAPACITY before CONFIG (70_reset_and_hazards.md R411, 60_exceptions.md R388). -/
def Cfg.check (c : Cfg) : Option FatalCode :=
  match c.capacityFault with
  | some q => some (.capacity q)
  | none =>
    match c.conditionFault with
    | some p => some (.config p)
    | none => none

/-- The configuration is well-formed (00_scope.md R8). -/
def Cfg.wf (c : Cfg) : Bool := c.check == none

/-- TC0, the configuration of 95_test_vectors.md section 0, with its test-only table entries. The values TC0 leaves
symbolic or does not give (colours, LINE tables, CYCLES_PER_SAMPLE, SAMPLE_RATE) are fillers of this model (DESIGN CHOICE,
log 1). -/
def Cfg.tc0 : Cfg where
  evsCap := 4
  snoopEvent := false
  nPool := 2
  frameLines := 240
  rqCap := 4
  linePixels := 512
  afifoCap := 4
  vdg := {
    vramBase := 0x8000
    modeAddr := 0xB000
    modeShift := 4
    cssAddr := 0xB002
    cssBit := 3
    modeTable := [(0x1, ⟨.r64, .two, 3⟩), (0x9, ⟨.r128, .two, 2⟩), (0xF, ⟨.r256, .one, 1⟩)]
    charDecode := [(0x01, .alpha false 0x01 false), (0x20, .alpha false 0x20 false), (0x81, .alpha false 0x01 true)]
    glyph := [(0x001, 0x18)]
    textFg := [(0, 2), (1, 4)]
    textBg := [(0, 1), (1, 3)]
    pal2 := [(0, 1), (1, 2), (2, 3), (3, 4)]
    pal4 := [(0, 5), (1, 6), (2, 7), (3, 8), (4, 9), (5, 10), (6, 11), (7, 12)]
    semiBg := 13
    border := 14
    vStart := 0
    vLines := 192
    hStart := 0
    xscale := 2 }
  tt := {
    base := 0x7C00
    vStart := 0
    hStart := 0
    xscale := 1
    border := 15
    glyph := []
    mosaic := []
    palette := [(1, 1), (2, 2), (3, 3), (4, 4), (5, 5), (6, 6), (7, 7)]
    crtcAddr := 0x0E00
    crtcData := 0x0E01
    crtcStartHi := 12
    crtcStartLo := 13
    crtcCursorHi := 14
    crtcCursorLo := 15
    cursorPeriod := 128
    cursorOn := 64
    cursorBandStart := 18 }
  a80 := {
    base := 0x4000
    attrBase := 0x5000
    ctrl0 := 0x5FF0
    ctrl1 := 0x5FF1
    vStart := 0
    rows := 24
    gh := 10
    hStart := 0
    ulRow := 9
    glyph := []
    pal := []
    border := 16 }
  audio := {
    base := 0xBDC0
    woLen := 25
    roLen := 4
    sampleRate := 1
    cyclesPerSample := 1 }

end Sys2Proof
end

