-- ==== Sys2Proof/Machine/Sparse.lean ====
section
/-! DEFINITION. The one representation of every indexed storage of the block (shadow cells, tags, ring and queue slots,
pool pixels): a list of (index, value) pairs, indexes strictly rising, no entry equal to the value an unlisted index
reads as. Equal contents are then equal lists. -/

namespace Sys2Proof

/-- The value at index `a`; an unlisted index reads as `d`. -/
def Sparse.get {α : Type} (d : α) : List (Nat × α) → Nat → α
  | [], _ => d
  | (k, v) :: m, a => if k = a then v else Sparse.get d m a

/-- Removes index `a`. -/
def Sparse.erase {α : Type} (m : List (Nat × α)) (a : Nat) : List (Nat × α) :=
  m.filter fun c => c.1 != a

/-- Lists the value `v` at index `a`, in its place. -/
def Sparse.put {α : Type} (a : Nat) (v : α) : List (Nat × α) → List (Nat × α)
  | [] => [(a, v)]
  | (k, w) :: m =>
    if a < k then (a, v) :: (k, w) :: m
    else if a = k then (a, v) :: m
    else (k, w) :: Sparse.put a v m

/-- Writes `v` at index `a`, keeping the canonical form: writing the value an unlisted index reads as removes the entry. -/
def Sparse.set {α : Type} [DecidableEq α] (d : α) (m : List (Nat × α)) (a : Nat) (v : α) : List (Nat × α) :=
  if v = d then Sparse.erase m a else Sparse.put a v m

/-- The entries of a run of values that starts at index `base`, less those equal to `d`. -/
def Sparse.run {α : Type} [DecidableEq α] (d : α) (base : Nat) : List α → List (Nat × α)
  | [] => []
  | v :: vs => if v = d then Sparse.run d (base + 1) vs else (base, v) :: Sparse.run d (base + 1) vs

/-- Writes the values `vs` at the indexes `base, base + 1, …`, keeping the canonical form. -/
def Sparse.splice {α : Type} [DecidableEq α] (d : α) (m : List (Nat × α)) (base : Nat) (vs : List α) :
    List (Nat × α) :=
  m.filter (fun c => decide (c.1 < base)) ++ Sparse.run d base vs ++
    m.filter (fun c => decide (base + vs.length ≤ c.1))

/-- The canonical form: indexes strictly rising from `lo` on, no entry equal to `d`. -/
def Sparse.wfFrom {α : Type} [DecidableEq α] (d : α) (lo : Nat) : List (Nat × α) → Bool
  | [] => true
  | (k, v) :: m => decide (lo ≤ k) && decide (v ≠ d) && Sparse.wfFrom d (k + 1) m

/-- The canonical form with every index below `bound`. -/
def Sparse.wf {α : Type} [DecidableEq α] (d : α) (bound : Nat) (m : List (Nat × α)) : Bool :=
  Sparse.wfFrom d 0 m && m.all fun c => decide (c.1 < bound)

/-- The shadow memory's cells that differ from the fill byte (10_state.md R22, 20_memory.md R60). -/
abbrev Memory := List Host.Cell

/-- What a shadow cell reads as that nothing has written since reset. The spec makes it a draw fixed at reset (10_state.md
R22); this model's reset draws 0 for every cell (DESIGN CHOICE, unsafe, log 2). -/
def Memory.fill : Byte := 0#8

/-- The canonical form of the shadow memory: every address inside the window of 65536 cells, strictly rising, no entry
equal to `Memory.fill`. -/
def Memory.wf (m : Memory) : Bool := Sparse.wf Memory.fill 65536 m

end Sys2Proof
end

