-- ==== Sys2Proof/Machine/State.lean ====
section
/-! DEFINITION. The state of the block (10_state.md), as plain data, its reset (70_reset_and_hazards.md R410, R411), and
the reasons a step can stop. Field names are the spec's, in Lean's spelling. -/

namespace Sys2Proof.Machine

/-! ## Data encodings -/

/-- The renderer selector (30_encoding.md R101). -/
inductive Renderer where
  | vdg | teletext | attr80
  deriving DecidableEq, Repr

/-- A request token (30_encoding.md R99). -/
inductive Token where
  | line (l : Word32)
  | vsync
  deriving DecidableEq, Repr

/-- An audio FIFO entry (30_encoding.md R98). -/
structure Entry where
  off : Byte
  val : BitVec 9
  deriving DecidableEq, Repr

/-- `Class` of a handled event (30_encoding.md R100, 45_audio.md R346). -/
inductive EventClass where
  | audio | crtcIndex | crtcData | ignored
  deriving DecidableEq, Repr

/-- A result an operation returns to its issuing agent (30_encoding.md R92, R100). -/
inductive Result where
  /-- BUS_RD: the capture pipeline drove this byte. -/
  | driven (v : Byte)
  /-- BUS_RD: it drove nothing. -/
  | notDriven
  /-- SHADOW_RD. -/
  | byte (v : Byte)
  /-- POLL_EVENT: `Option Loc`. -/
  | polled (loc : Option Addr)
  /-- EVENT_DISPATCH: `Empty`. -/
  | empty
  /-- EVENT_DISPATCH: `Handled(Loc, Class)`. -/
  | handled (loc : Addr) (cls : EventClass)
  /-- RENDER_LINE: `Option slot`. -/
  | slot (s : Option Nat)
  /-- POOL_READ. -/
  | pixel (p : Pixel)
  deriving DecidableEq, Repr

/-! ## Operations in progress (10_state.md R42; 00_scope.md R10) -/

/-- The operation a poll belongs to: POLL_EVENT itself, or the poll inside EVENT_DISPATCH (45_audio.md R345). -/
inductive PollFor where
  | poll | dispatch
  deriving DecidableEq, Repr

/-- `irq_phase` (10_state.md R42). `polling w op` is the spec's `Polling(w)`; `delivering loc` is an EVENT_DISPATCH between
its sub-actions (2) and (3), where the spec's `irq_phase` is Idle again and the operation is not finished (log 11). -/
inductive IrqPhase where
  | idle
  | polling (w : Word32) (op : PollFor)
  | delivering (loc : Addr)
  deriving DecidableEq, Repr

/-- A shadow read that a line function names (43_scanline_decode.md R231, R238, R242, R256, R257; 44_teletext.md R282).
Reads are told apart by name, not by address: two reads of one cell in one step may differ (20_memory.md R67). -/
inductive LineRead where
  | mode
  | css
  | row (k : Nat)
  | ctrl0
  | ctrl1
  | ch (c : Nat)
  | attr (c : Nat)
  | cell (c : Nat)
  deriving DecidableEq, Repr

/-- What a line function takes from the state besides the shadow bytes. The bookkeeping is that of the step's start
(43_scanline_decode.md, before R230), and so is `fc`, which only the render loop changes; `reveal`, `ttStart` and `ttCursor` are
taken again with LINE's first shadow read, where the line scan begins (44_teletext.md R305, R306; log 13). -/
structure LineCtx where
  renderer   : Renderer
  target     : Nat
  rowBase    : Addr
  lineCount  : Byte
  lastMode   : Option (BitVec 4)
  lowerNext  : Bool
  lowerCur   : Bool
  fc         : Word32
  reveal     : Bool
  ttStart    : Addr
  ttCursor   : Addr
  deriving DecidableEq, Repr

/-- `rend_phase` (10_state.md R42): `rendering ctx s reads written` is the spec's `Rendering(t, s)` with `t = ctx.target`;
`reads` are the bytes read so far and `written` the pixels written so far (42_scanline_pipeline.md R195, R207). -/
inductive RendPhase where
  | idle
  | rendering (ctx : LineCtx) (slot : Nat) (reads : List (LineRead × Byte)) (written : List Nat)
  deriving DecidableEq, Repr

/-- What follows a run of tag writes: the end of SET_PERM, or a later stage of AUDIO_INIT (45_audio.md R341). -/
inductive FillThen where
  | done | initRo | initSynth
  deriving DecidableEq, Repr

/-- SW's operation in progress: tag writes left to do (40_shadowbus.md R137), or the stage of AUDIO_INIT reached
(45_audio.md R341): (b)'s range check, (c), (d). -/
inductive SwPhase where
  | idle
  | filling (flags : Perm) (addr : Nat) (left : Nat) (andThen : FillThen)
  | initRo
  | initSynth
  | initArm
  deriving DecidableEq, Repr

/-- AUD's tick in progress (45_audio.md R351): entries left to apply, the clock sub-action, status bytes left from `i`. -/
inductive AudPhase where
  | idle
  | draining (left : Nat)
  | clocking
  | status (i : Nat)
  deriving DecidableEq, Repr

/-! ## The environment: programs and schedule (70_reset_and_hazards.md R422; log 3) -/

/-- Each agent's list of operation words still to issue (70_reset_and_hazards.md R422). -/
structure Programs where
  bus  : List Txn
  sw   : List Txn
  irq  : List Txn
  rend : List Txn
  vid  : List Txn
  aud  : List Txn
  deriving DecidableEq, Repr

/-- What a scheduled agent does next (00_scope.md R6, R10; log 3). -/
inductive Move where
  /-- Issue the agent's next word and run it to its end with no other agent between. -/
  | issue
  /-- Issue the agent's next word and perform its first sub-action only. -/
  | start
  /-- Perform the next sub-action, in the order of the pseudocode, of the operation in progress. -/
  | advance
  /-- REND: perform this shadow read of the step in progress (42_scanline_pipeline.md R207: any order). -/
  | read (r : LineRead)
  /-- REND: perform this pixel write of the step in progress (42_scanline_pipeline.md R207: any order). -/
  | write (x : Nat)
  /-- IRQ: take the event-drain interrupt (60_exceptions.md R386). -/
  | takeIrq
  deriving DecidableEq, Repr

/-- One entry of the schedule. -/
structure Slot where
  agent : Agent
  move  : Move
  deriving DecidableEq, Repr

/-! ## State -/

/-- The state (10_state.md R20-R46), the configuration it runs under (00_scope.md R7; log 1), and the environment's
programs, schedule, received results and emitted levels, newest first (log 3, log 9). -/
structure State where
  cfg           : Cfg
  -- ShadowBus
  shadow        : Memory
  perm          : List (Nat × Perm)
  paused        : Bool
  -- EventStream
  W             : Word32
  R             : Word32
  evbuf         : List (Nat × Addr)
  irqEnabled    : Bool
  -- scanline pipeline
  rqSlot        : List (Nat × Token)
  rqHead        : Word32
  rqTail        : Word32
  pool          : List (Nat × Pixel)
  writingSlot   : Option Nat
  rowBase       : Addr
  lineCount     : Byte
  lastMode      : Option (BitVec 4)
  rendererCfg   : Renderer
  rendererFrame : Renderer
  fc            : Word32
  reveal        : Bool
  ttLowerNext   : Bool
  ttLowerCur    : Bool
  ttCrtcIdx     : Byte
  ttStart       : Addr
  ttCursor      : Addr
  -- audio consumer
  afSlot        : List (Nat × Entry)
  afHead        : Word32
  afTail        : Word32
  synth         : SynthState
  audioArmed    : Bool
  dacLevel      : Word32
  -- fault and refusal
  fatal         : Option FatalCode
  refused       : Bool
  -- operations in progress
  irqPhase      : IrqPhase
  rendPhase     : RendPhase
  swPhase       : SwPhase
  audPhase      : AudPhase
  irqService    : Bool
  -- the environment
  progs         : Programs
  sched         : List Slot
  results       : List (Agent × Result)
  dacLog        : List Word32
  deriving DecidableEq, Repr

/-! ## Why a step stops -/

/-- The faults of the machine. -/
inductive Fault where
  /-- The block is in the fatal state (60_exceptions.md R382: no agent has an enabled operation). Answered by every meaning
  and by the step while `fatal` is `some c`. Safe: the hardware does nothing here either (log 7). -/
  | halted (c : FatalCode)
  deriving DecidableEq, Repr

/-- The refusals of the model. The spec's own refusals (60_exceptions.md R384) are next states with `refused` set (log 6). -/
inductive Refusal where
  /-- An instruction with no meaning yet, by its mnemonic. Raised by no arm of `exec`: all are modelled. Safe. -/
  | notModelled (mnemonic : String)
  deriving DecidableEq, Repr

/-! ## Reset (70_reset_and_hazards.md R410, R411) -/

/-- The values R410 leaves to draws. -/
structure Draws where
  shadow    : Memory
  evbuf     : List (Nat × Addr)
  rqSlot    : List (Nat × Token)
  pool      : List (Nat × Pixel)
  ttCrtcIdx : Byte
  ttStart   : Addr
  ttCursor  : Addr
  afSlot    : List (Nat × Entry)
  dacLevel  : Word32
  deriving DecidableEq, Repr

/-- The draws this model's reset takes: nothing listed, every register 0 (DESIGN CHOICE, unsafe, log 2). -/
def Draws.zero : Draws where
  shadow := []
  evbuf := []
  rqSlot := []
  pool := []
  ttCrtcIdx := 0#8
  ttStart := 0#16
  ttCursor := 0#16
  afSlot := []
  dacLevel := 0#32

/-- No words to issue. -/
def Programs.none : Programs := ⟨[], [], [], [], [], []⟩

/-- Reset under configuration `c` with the draws `d`: every state element at the value 70_reset_and_hazards.md R410 gives
it, then the configuration check of R411. Statements about reset are made about this function, for every `c` and `d`. -/
def State.resetOf (c : Cfg) (d : Draws) : State where
  cfg := c
  shadow := d.shadow
  perm := []
  paused := false
  W := 0#32
  R := 0#32
  evbuf := d.evbuf
  irqEnabled := false
  rqSlot := d.rqSlot
  rqHead := 0#32
  rqTail := 0#32
  pool := d.pool
  writingSlot := .none
  rowBase := 0#16
  lineCount := 0#8
  lastMode := .none
  rendererCfg := .vdg
  rendererFrame := .vdg
  fc := 0#32
  reveal := false
  ttLowerNext := false
  ttLowerCur := false
  ttCrtcIdx := d.ttCrtcIdx
  ttStart := d.ttStart
  ttCursor := d.ttCursor
  afSlot := d.afSlot
  afHead := 0#32
  afTail := 0#32
  synth := Config.synthReset
  audioArmed := false
  dacLevel := d.dacLevel
  fatal := c.check
  refused := false
  irqPhase := .idle
  rendPhase := .idle
  swPhase := .idle
  audPhase := .idle
  irqService := false
  progs := .none
  sched := []
  results := []
  dacLog := []

/-- The machine right after reset: configuration TC0 (log 1), nothing listed in any storage (log 2), no program (log 4). -/
def State.reset : State := State.resetOf Cfg.tc0 Draws.zero

end Sys2Proof.Machine
end

