-- ==== Sys2Proof/Machine/Flags.lean ====
section
/-! DEFINITION. Every status the spec derives from stored state: the permission flags and what they decide (40_shadowbus.md
R131-R133, R142), the rings' fill levels (41_eventstream.md R162, R163; 42_scanline_pipeline.md R193; 45_audio.md R347), the
interrupt's pending and enabled status (60_exceptions.md R386), and the flash and cursor phases (44_teletext.md R297, R299). -/

namespace Sys2Proof.Machine

/-! ## Permission flags (30_encoding.md R96) -/

/-- READ, bit 0. -/
def Perm.read (p : Perm) : Bool := p.getLsbD 0
/-- WRITE, bit 1. -/
def Perm.write (p : Perm) : Bool := p.getLsbD 1
/-- SNOOP, bit 2. -/
def Perm.snoop (p : Perm) : Bool := p.getLsbD 2

/-- The tag "none" (30_encoding.md R96). -/
def Perm.tagNone : Perm := 0b000#3
/-- The tag "read-only" (30_encoding.md R96). -/
def Perm.tagRead : Perm := 0b001#3
/-- The tag "write-only" (30_encoding.md R96). -/
def Perm.tagWrite : Perm := 0b010#3
/-- The tag "read-write" (30_encoding.md R96). -/
def Perm.tagReadWrite : Perm := 0b011#3
/-- The tag "read-snoop" (30_encoding.md R96). -/
def Perm.tagReadSnoop : Perm := 0b101#3

/-- `qualifies(p)`: a bus write to a cell tagged `p` enqueues a record (40_shadowbus.md R132); `snoopEvent` is
P_SNOOP_EVENT. -/
def Perm.qualifies (snoopEvent : Bool) (p : Perm) : Bool :=
  Perm.write p || (Perm.snoop p && !Perm.write p && snoopEvent)

/-! ## Fill levels -/

/-- `gap = wrap32(W - R)` (41_eventstream.md R162). -/
def State.gap (s : State) : Word32 := s.W - s.R

/-- The EventStream is empty: `R = W` (41_eventstream.md R163). -/
def State.evEmpty (s : State) : Bool := s.R == s.W

/-- The event-drain interrupt is pending: `R != W` (60_exceptions.md R386). -/
def State.pending (s : State) : Bool := s.R != s.W

/-- Tokens in the request queue (10_state.md R28). -/
def State.rqCount (s : State) : Word32 := s.rqHead - s.rqTail

/-- The request queue is full (42_scanline_pipeline.md R193). -/
def State.rqFull (s : State) : Bool := s.rqCount.toNat == s.cfg.rqCap

/-- The request queue holds no token. -/
def State.rqEmpty (s : State) : Bool := s.rqCount == 0#32

/-- Entries in the audio FIFO (10_state.md R37). -/
def State.afCount (s : State) : Word32 := s.afHead - s.afTail

/-- The audio FIFO is full (45_audio.md R347). -/
def State.afFull (s : State) : Bool := s.afCount.toNat == s.cfg.afifoCap

/-! ## Teletext phases -/

/-- `flash_visible` (44_teletext.md R297). -/
def flashVisible (fc : Word32) : Bool := decide (Config.flashBlank ≤ fc.toNat % Config.flashPeriod)

/-- The cursor's blink phase is on (44_teletext.md R299). -/
def cursorBlinkOn (c : TtCfg) (fc : Word32) : Bool := decide (fc.toNat % c.cursorPeriod < c.cursorOn)

end Sys2Proof.Machine
end

