-- ==== Sys2Proof/Machine/Ops.lean ====
section
/-! DEFINITION. The named operations over memory, tags, rings and queues; raising a fatal code, refusing, answering; taking
the event-drain interrupt and returning from it; and the one form every meaning has (`issue`). -/

namespace Sys2Proof.Machine

/-! ## Shadow memory and tags -/

/-- `shadow[a]` (00_scope.md R10). -/
def State.readByte (s : State) (a : Addr) : Byte := Sparse.get Memory.fill s.shadow a.toNat

/-- `shadow[a] <- v` (00_scope.md R10). -/
def State.writeByte (s : State) (a : Addr) (v : Byte) : State :=
  { s with shadow := Sparse.set Memory.fill s.shadow a.toNat v }

/-- `perm[a]` (00_scope.md R10); the reset tag is none (10_state.md R23). -/
def State.permAt (s : State) (a : Addr) : Perm := Sparse.get Perm.tagNone s.perm a.toNat

/-- `perm[a] <- flags`, one cell (40_shadowbus.md R137). -/
def State.setTag (s : State) (flags : Perm) (a : Nat) : State :=
  { s with perm := Sparse.set Perm.tagNone s.perm a flags }

/-- `perm[base .. base + n - 1] <- flags`: what the cell writes of one SET_PERM leave (40_shadowbus.md R137). -/
def State.setTags (s : State) (flags : Perm) (base n : Nat) : State :=
  { s with perm := Sparse.splice Perm.tagNone s.perm base (List.replicate n flags) }

/-! ## Fatal codes, refusals, results -/

/-- `raise Fatal(code)` (60_exceptions.md R381): records the code and changes nothing else. -/
def State.raiseFatal (s : State) (c : FatalCode) : State := { s with fatal := some c }

/-- The reasons of a refusal (60_exceptions.md R384). The mark they leave does not tell them apart. -/
inductive RefuseReason where
  | invalid | wrongAgent | outOfPool | reentrant | overlap
  deriving DecidableEq, Repr

/-- `refuse(reason)` (60_exceptions.md R384): sets `refused` and changes no other state. -/
def State.refuse (s : State) (_why : RefuseReason) : State := { s with refused := true }

/-- `return v` to the issuing agent (00_scope.md R10); the newest result stands first (log 9). -/
def State.answer (s : State) (a : Agent) (r : Result) : State := { s with results := (a, r) :: s.results }

/-! ## EventStream -/

/-- The slot of record or token number `n` in a ring of `cap` slots: `n mod cap` (41_eventstream.md R160). -/
def slotOf (n : Word32) (cap : Nat) : Nat := n.toNat % cap

/-- `evbuf[n mod C]` (41_eventstream.md R160). -/
def State.evSlot (s : State) (n : Word32) : Addr := Sparse.get 0#16 s.evbuf (slotOf n s.cfg.evsCap)

/-- ENQUEUE (41_eventstream.md R161): no full check, no backpressure. -/
def State.enqueue (s : State) (a : Addr) : State :=
  { s with evbuf := Sparse.set 0#16 s.evbuf (slotOf s.W s.cfg.evsCap) a, W := s.W + 1#32 }

/-- R after the overflow resynchronisation of a poll that sampled `w` (41_eventstream.md R164, R165). -/
def State.resynced (s : State) (w : Word32) : Word32 :=
  if s.cfg.evsCap < (w - s.R).toNat then w - BitVec.ofNat 32 s.cfg.evsCap else s.R

/-! ## Request queue (10_state.md R28) -/

/-- `rq_push` (42_scanline_pipeline.md R193): a token pushed into a full queue is dropped. -/
def State.rqPush (s : State) (t : Token) : State :=
  if s.rqFull then s
  else { s with rqSlot := Sparse.set Token.vsync s.rqSlot (slotOf s.rqHead s.cfg.rqCap) t, rqHead := s.rqHead + 1#32 }

/-- `rq_slot[n mod RQ_CAP]` (10_state.md R28). -/
def State.rqSlotAt (s : State) (n : Word32) : Token := Sparse.get Token.vsync s.rqSlot (slotOf n s.cfg.rqCap)

/-- The oldest token (10_state.md R28). -/
def State.rqTop (s : State) : Token := s.rqSlotAt s.rqTail

/-- Advances the tail (42_scanline_pipeline.md R195). -/
def State.rqPop (s : State) : State := { s with rqTail := s.rqTail + 1#32 }

/-! ## Audio register FIFO (10_state.md R37) -/

/-- `af_push` (45_audio.md R347): an entry pushed into a full FIFO is dropped. -/
def State.afPush (s : State) (e : Entry) : State :=
  if s.afFull then s
  else { s with afSlot := Sparse.set ⟨0#8, 0#9⟩ s.afSlot (slotOf s.afHead s.cfg.afifoCap) e, afHead := s.afHead + 1#32 }

/-- `af_slot[n mod AFIFO_CAP]` (10_state.md R37). -/
def State.afSlotAt (s : State) (n : Word32) : Entry := Sparse.get ⟨0#8, 0#9⟩ s.afSlot (slotOf n s.cfg.afifoCap)

/-- The oldest entry (10_state.md R37). -/
def State.afTop (s : State) : Entry := s.afSlotAt s.afTail

/-- Advances the tail (45_audio.md R351). -/
def State.afPop (s : State) : State := { s with afTail := s.afTail + 1#32 }

/-! ## Line-buffer pool (10_state.md R29) -/

/-- The index of pixel x of slot s in the pool's storage (no rule observes it: the pool has no address, R60). -/
def poolIndex (c : Cfg) (slot x : Nat) : Nat := slot * c.linePixels + x

/-- `pool[slot][x]`. -/
def State.poolAt (s : State) (slot x : Nat) : Pixel := Sparse.get 0#8 s.pool (poolIndex s.cfg slot x)

/-- `pool[slot][x] <- p` (42_scanline_pipeline.md R207). -/
def State.writePixel (s : State) (slot x : Nat) (p : Pixel) : State :=
  { s with pool := Sparse.set 0#8 s.pool (poolIndex s.cfg slot x) p }

/-- `pool[slot][0 ..] <- px`: what the pixel writes of one step leave (42_scanline_pipeline.md R195). -/
def State.writeLine (s : State) (slot : Nat) (px : List Pixel) : State :=
  { s with pool := Sparse.splice 0#8 s.pool (poolIndex s.cfg slot 0) px }

/-! ## The event-drain interrupt (60_exceptions.md R386-R390) -/

/-- Taking the interrupt (60_exceptions.md R386, R389): when it is pending and enabled and the IRQ agent is between
operations, the agent starts `irq_service`; nothing is saved, no mode changes. Otherwise nothing happens. -/
def State.takeInterrupt (s : State) : State :=
  if s.pending && s.irqEnabled && s.irqPhase == .idle then { s with irqService := true } else s

/-- Returning from the handler (60_exceptions.md R390): nothing is restored and `irq_enabled` is unchanged. -/
def State.returnInterrupt (s : State) : State := { s with irqService := false }

/-! ## Admission: may the issue go ahead -/

/-- What becomes of an issue in the present state: it runs; it waits (60_exceptions.md R385, R386; a sequential agent with
an operation in progress issues no other, 00_scope.md R6); or the model refuses it (R384). -/
inductive Admission where
  | go
  | wait
  | refuse (why : RefuseReason)
  deriving DecidableEq, Repr

/-- SW's operations: SW is a sequential issuer (00_scope.md R6; log 10). -/
def State.admitSw (s : State) : Admission := if s.swPhase = .idle then .go else .wait

/-- POLL_EVENT and EVENT_DISPATCH: Reentrant while Polling (60_exceptions.md R384); enabled only while `irq_enabled` (R386). -/
def State.admitPoll (s : State) : Admission :=
  match s.irqPhase with
  | .polling _ _ => .refuse .reentrant
  | .delivering _ => .wait
  | .idle => if s.irqEnabled then .go else .wait

/-- AUDIO_RESET: enabled only while `irq_enabled` (60_exceptions.md R386); the IRQ agent is sequential (R390; log 10). -/
def State.admitIrqReset (s : State) : Admission :=
  if s.irqPhase = .idle && s.irqEnabled then .go else .wait

/-- RENDER_STEP: Overlap while a step is in progress (60_exceptions.md R384); waits for a non-empty queue (R385). -/
def State.admitRender (s : State) : Admission :=
  if s.rendPhase ≠ .idle then .refuse .overlap else if s.rqEmpty then .wait else .go

/-- AUDIO_TICK: Overlap while a tick is in progress (60_exceptions.md R384); waits for `audio_armed` (R385). -/
def State.admitTick (s : State) : Admission :=
  if s.audPhase ≠ .idle then .refuse .overlap else if s.audioArmed then .go else .wait

/-- POOL_READ: OutOfPool with `slot >= N_POOL` or `x >= LINE_PIXELS` (42_scanline_pipeline.md R201). -/
def State.admitPoolRead (s : State) (slot : Byte) (x : BitVec 16) : Admission :=
  if slot.toNat < s.cfg.nPool && x.toNat < s.cfg.linePixels then .go else .refuse .outOfPool

/-- The renderer a selector names; `sel = 3` names none (30_encoding.md R101). -/
def rendererOf (sel : BitVec 2) : Option Renderer :=
  match sel.toNat with
  | 0 => some .vdg
  | 1 => some .teletext
  | 2 => some .attr80
  | _ => none

/-- SET_RENDERER: `sel = 3` spells no operation (30_encoding.md R93; log 24). -/
def State.admitRenderer (s : State) (sel : BitVec 2) : Admission :=
  if (rendererOf sel).isSome then s.admitSw else .refuse .invalid

/-- The admission of any issue: what `step` asks before it takes the word from the agent's list (log 5). -/
def State.admission (s : State) : Instr → Admission
  | .busWr _ _ | .busRd _ | .renderLine _ | .renderLineVsync => .go
  | .capPause | .capResume | .setIrqEnable _ | .setPerm _ _ _ | .shadowRd _ | .shadowWr _ _ | .setReveal _
  | .audioInit => s.admitSw
  | .setRenderer sel => s.admitRenderer sel
  | .pollEvent | .eventDispatch => s.admitPoll
  | .audioReset => s.admitIrqReset
  | .renderStep => s.admitRender
  | .poolRead slot x => s.admitPoolRead slot x
  | .audioTick => s.admitTick

/-- The form of every meaning: in the fatal state nothing is enabled (60_exceptions.md R382); otherwise the issue runs and
leaves `t`, waits and leaves the state as it is, or is refused. -/
def issue (a : Admission) (s t : State) : Host.Outcome State Fault Refusal :=
  match s.fatal with
  | some c => .fault (.halted c)
  | none =>
    match a with
    | .go => .next t
    | .wait => .next s
    | .refuse why => .next (s.refuse why)

end Sys2Proof.Machine
end

