-- ==== Sys2Proof/Machine/Software.lean ====
section
/-! DEFINITION. The software-side operations of the ShadowBus (40_shadowbus.md R137-R141), SET_IRQ_ENABLE
(60_exceptions.md R387), and the tag-writing sub-actions AUDIO_INIT shares with SET_PERM (45_audio.md R341). -/

namespace Sys2Proof.Machine

/-! ## SET_PERM as one uninterrupted operation -/

/-- SET_PERM run to its end (40_shadowbus.md R137): the range check raises PERM_RANGE before any tag is written (R138). -/
def State.setPerm (s : State) (flags : Perm) (base len : Nat) : State :=
  if 65536 < base + len then s.raiseFatal (.permRange base len) else s.setTags flags base len

/-! ## SET_PERM and AUDIO_INIT by sub-actions -/

/-- Where SW stands when a run of tag writes is over. -/
def FillThen.phase : FillThen → SwPhase
  | .done => .idle
  | .initRo => .initRo
  | .initSynth => .initSynth

/-- Sub-action (1) of a SET_PERM (40_shadowbus.md R137). -/
def State.fillStart (s : State) (flags : Perm) (base len : Nat) (k : FillThen) : State :=
  if 65536 < base + len then { s.raiseFatal (.permRange base len) with swPhase := .idle }
  else if len = 0 then { s with swPhase := k.phase }
  else { s with swPhase := .filling flags base len k }

/-- The next sub-action of SW's operation in progress: one tag (40_shadowbus.md R137), or (b)(1), (c), (d) of AUDIO_INIT
(45_audio.md R341). -/
def State.swAdvance (s : State) : State :=
  match s.swPhase with
  | .idle => s
  | .filling flags a left k =>
    { s.setTag flags a with swPhase := if left ≤ 1 then k.phase else .filling flags (a + 1) (left - 1) k }
  | .initRo => s.fillStart Perm.tagRead (s.cfg.audio.base.toNat + s.cfg.audio.woLen) s.cfg.audio.roLen .initSynth
  | .initSynth => { s with synth := Config.synthReset, swPhase := .initArm }
  | .initArm => { s with audioArmed := true, swPhase := .idle }

/-! ## Meanings -/

/-- SET_IRQ_ENABLE (60_exceptions.md R387). -/
def execSetIrqEnable (v : Bool) (s : State) : Host.Outcome State Fault Refusal :=
  issue s.admitSw s { s with irqEnabled := v }

/-- SET_PERM (40_shadowbus.md R137). -/
def execSetPerm (flags : Perm) (base : Addr) (len : BitVec 17) (s : State) : Host.Outcome State Fault Refusal :=
  issue s.admitSw s (s.setPerm flags base.toNat len.toNat)

/-- SHADOW_RD (40_shadowbus.md R140): the tag is not consulted. -/
def execShadowRd (addr : Addr) (s : State) : Host.Outcome State Fault Refusal :=
  issue s.admitSw s (s.answer .sw (.byte (s.readByte addr)))

/-- SHADOW_WR (40_shadowbus.md R141): the tag is not consulted and no record is enqueued. -/
def execShadowWr (addr : Addr) (data : Byte) (s : State) : Host.Outcome State Fault Refusal :=
  issue s.admitSw s (s.writeByte addr data)

end Sys2Proof.Machine
end

