-- ==== Sys2Proof/Machine/Audio.lean ====
section
/-! DEFINITION. The audio consumer: AUDIO_INIT, AUDIO_TICK, AUDIO_RESET (45_audio.md R341-R358). -/

namespace Sys2Proof.Machine

/-! ## The synthesizer's functions that keep the register mirror (45_audio.md R353, R355) -/

/-- SYNTH_REG(s, o), the register mirror (45_audio.md R355). -/
def synthReg (y : SynthState) (o : Nat) : Byte := y.mirror.getD o 0#8

/-- SYNTH_RESET_VOICES(s): clears the voices and keeps the register mirror (45_audio.md R353). -/
def synthResetVoices (y : SynthState) : SynthState := { y with core := Config.synthVoicesCleared y }

/-- One entry applied (45_audio.md R351): the sentinel resets the voices, a register value is written. -/
def synthApply (y : SynthState) (e : Entry) : SynthState :=
  if e.val = Config.sentinel then synthResetVoices y else Config.synthWrite y e.off.toNat (e.val.setWidth 8)

/-! ## AUDIO_INIT (45_audio.md R341) -/

/-- AUDIO_INIT run to its end: (a), (b), (c), (d), stopping at a PERM_RANGE that (a) or (b) raises (60_exceptions.md R389). -/
def State.audioInit (s : State) : State :=
  let wo := s.setPerm Perm.tagWrite s.cfg.audio.base.toNat s.cfg.audio.woLen
  if wo.fatal.isSome then wo
  else
    let ro := wo.setPerm Perm.tagRead (s.cfg.audio.base.toNat + s.cfg.audio.woLen) s.cfg.audio.roLen
    if ro.fatal.isSome then ro
    else { ro with synth := Config.synthReset, audioArmed := true }

/-! ## AUDIO_TICK's sub-actions (45_audio.md R351) -/

/-- Sub-action (1): the entries present now are the ones this tick applies. -/
def State.tickStart (s : State) : State :=
  { s with audPhase := if s.afCount.toNat = 0 then .clocking else .draining s.afCount.toNat }

/-- One entry applied and popped. -/
def State.applyEntry (s : State) : State := { s.afPop with synth := synthApply s.synth s.afTop }

/-- The level a sample is emitted at: PWM_LEVEL of the sample SYNTH_CLOCK gives (45_audio.md R351, R356). -/
def State.nextLevel (s : State) : Word32 :=
  Config.pwmLevel (Config.synthClock s.synth s.cfg.audio.cyclesPerSample).2

/-- Sub-action (n+2): advance the synthesizer by one sample and emit it. The emitted levels are kept for the observation of
the run (70_reset_and_hazards.md R422; log 9). -/
def State.clockSynth (s : State) : State :=
  { s with
    synth := (Config.synthClock s.synth s.cfg.audio.cyclesPerSample).1
    dacLevel := s.nextLevel
    dacLog := s.nextLevel :: s.dacLog }

/-- The address of status register i (45_audio.md R340, R351), wrapped (20_memory.md R62). -/
def statusAddr (c : Cfg) (i : Nat) : Addr := c.audio.base + BitVec.ofNat 16 (c.audio.woLen + i)

/-- Status byte i written back: ungated, no record (45_audio.md R351). -/
def State.writeStatus (s : State) (i : Nat) : State := s.writeByte (statusAddr s.cfg i) (Config.synthStatus s.synth i)

/-- Where the tick stands when status byte `i` is next. -/
def statusPhase (c : Cfg) (i : Nat) : AudPhase := if i < c.audio.roLen then .status i else .idle

/-- The next sub-action of the tick in progress. -/
def State.audAdvance (s : State) : State :=
  match s.audPhase with
  | .idle => s
  | .draining left => { s.applyEntry with audPhase := if left ≤ 1 then .clocking else .draining (left - 1) }
  | .clocking => { s.clockSynth with audPhase := statusPhase s.cfg 0 }
  | .status i => { s.writeStatus i with audPhase := statusPhase s.cfg (i + 1) }

/-! ## AUDIO_TICK as one uninterrupted operation -/

/-- `n` entries applied, oldest first. -/
def State.drain (s : State) : Nat → State
  | 0 => s
  | n + 1 => s.applyEntry.drain n

/-- `n` status bytes written back from byte `i` on. -/
def State.writeStatuses (s : State) (i : Nat) : Nat → State
  | 0 => s
  | n + 1 => (s.writeStatus i).writeStatuses (i + 1) n

/-- AUDIO_TICK run to its end. -/
def State.tick (s : State) : State :=
  (s.drain s.afCount.toNat).clockSynth.writeStatuses 0 s.cfg.audio.roLen

/-! ## Meanings -/

/-- AUDIO_INIT (45_audio.md R341). -/
def execAudioInit (s : State) : Host.Outcome State Fault Refusal := issue s.admitSw s s.audioInit

/-- AUDIO_TICK (45_audio.md R351). -/
def execAudioTick (s : State) : Host.Outcome State Fault Refusal := issue s.admitTick s s.tick

/-- AUDIO_RESET (45_audio.md R350): the reset pseudo-write (0, SENTINEL). -/
def execAudioReset (s : State) : Host.Outcome State Fault Refusal :=
  issue s.admitIrqReset s (s.afPush ⟨0#8, Config.sentinel⟩)

end Sys2Proof.Machine
end

