-- ==== Sys2Proof/Machine/Bus.lean ====
section
/-! DEFINITION. The bus-side operations and the capture control (40_shadowbus.md R130-R136). -/

namespace Sys2Proof.Machine

/-- The capture pipeline's response to a bus write (40_shadowbus.md R130): frozen while paused (R134); accepted iff WRITE
(R131); one record iff qualifying (R132), in the same atomic action (41_eventstream.md R161). -/
def State.capture (s : State) (addr : Addr) (data : Byte) : State :=
  if s.paused then s
  else
    let p := s.permAt addr
    let s1 := if Perm.write p then s.writeByte addr data else s
    if Perm.qualifies s.cfg.snoopEvent p then s1.enqueue addr else s1

/-- What the capture pipeline does on a bus read (40_shadowbus.md R133, R134). -/
def State.drive (s : State) (addr : Addr) : Result :=
  if s.paused then .notDriven
  else if Perm.read (s.permAt addr) then .driven (s.readByte addr)
  else .notDriven

/-- BUS_WR (40_shadowbus.md R130). -/
def execBusWr (addr : Addr) (data : Byte) (s : State) : Host.Outcome State Fault Refusal :=
  issue .go s (s.capture addr data)

/-- BUS_RD (40_shadowbus.md R133): no state changes but the result returned to BUS. -/
def execBusRd (addr : Addr) (s : State) : Host.Outcome State Fault Refusal :=
  issue .go s (s.answer .bus (s.drive addr))

/-- CAP_PAUSE (40_shadowbus.md R135). -/
def execCapPause (s : State) : Host.Outcome State Fault Refusal := issue s.admitSw s { s with paused := true }

/-- CAP_RESUME (40_shadowbus.md R136). -/
def execCapResume (s : State) : Host.Outcome State Fault Refusal := issue s.admitSw s { s with paused := false }

end Sys2Proof.Machine
end

