-- ==== Sys2Proof/Machine/Teletext.lean ====
section
/-! DEFINITION. The teletext line function, TT_LINE (44_teletext.md R280-R302), and the CRTC-style latch (R303-R305). -/

namespace Sys2Proof.Machine

/-! ## Geometry and character fetch -/

/-- The line is inside the active window of 25 rows of 20 lines (44_teletext.md R280). -/
def ttActive (c : TtCfg) (t : Nat) : Bool :=
  decide (c.vStart ≤ t) && decide (t < c.vStart + Config.ttRows * Config.ttSublines)

/-- Row r (44_teletext.md R280). -/
def ttRow (c : TtCfg) (t : Nat) : Nat := (t - c.vStart) / Config.ttSublines

/-- Sub-line k (44_teletext.md R280). -/
def ttSubline (c : TtCfg) (t : Nat) : Nat := (t - c.vStart) % Config.ttSublines

/-- `off(c) = wrap16(tt_start + 40r + c)` (44_teletext.md R281). -/
def ttOffset (c : TtCfg) (x : LineCtx) (col : Nat) : Addr :=
  x.ttStart + BitVec.ofNat 16 (Config.ttCols * ttRow c x.target + col)

/-- `wrap16(TT_BASE + off(c))` (44_teletext.md R281). -/
def ttCellAddr (c : TtCfg) (x : LineCtx) (col : Nat) : Addr := c.base + ttOffset c x col

/-- The 7-bit code of a byte: bit 7 is ignored (44_teletext.md R282). -/
def ttCode (b : Byte) : Byte := b &&& 0x7F#8

/-! ## Scan state -/

/-- The per-row scan state (44_teletext.md R284). -/
structure Scan where
  fg      : BitVec 3
  bg      : BitVec 3
  gfx     : Bool
  sep     : Bool
  hold    : Bool
  conceal : Bool
  flash   : Bool
  dh      : Bool
  held    : Option (Byte × Bool)
  rowDh   : Bool
  deriving DecidableEq, Repr

/-- The scan state at the start of every line (44_teletext.md R283). -/
def Scan.start : Scan :=
  { fg := 7#3, bg := 0#3, gfx := false, sep := false, hold := false, conceal := false, flash := false, dh := false,
    held := none, rowDh := false }

/-- Phase 1, the set-at codes (44_teletext.md R287). -/
def Scan.setAt (st : Scan) (code : Byte) : Scan :=
  match code.toNat with
  | 0x09 => { st with flash := false }
  | 0x0C => { st with dh := false }
  | 0x0D => { st with dh := true, rowDh := true }
  | 0x19 => { st with sep := false }
  | 0x1A => { st with sep := true }
  | 0x1C => { st with bg := 0#3 }
  | 0x1D => { st with bg := st.fg }
  | 0x1E => { st with hold := true }
  | _ => st

/-- Phase 3, the set-after codes (44_teletext.md R288). -/
def Scan.setAfter (st : Scan) (code : Byte) : Scan :=
  match code.toNat with
  | 0x01 | 0x02 | 0x03 | 0x04 | 0x05 | 0x06 | 0x07 => { st with fg := code.setWidth 3, gfx := false }
  | 0x11 | 0x12 | 0x13 | 0x14 | 0x15 | 0x16 | 0x17 => { st with fg := (code - 0x10#8).setWidth 3, gfx := true }
  | 0x08 => { st with flash := true }
  | 0x18 => { st with conceal := true }
  | 0x1F => { st with hold := false }
  | _ => st

/-- A control code (44_teletext.md R286). -/
def isControl (code : Byte) : Bool := decide (code.toNat < 0x20)

/-- A printable code is a mosaic iff graphics mode is on and bit 5 is set (44_teletext.md R292). -/
def Scan.isMosaic (st : Scan) (code : Byte) : Bool := !isControl code && st.gfx && code.getLsbD 5

/-- A mosaic cell is remembered after it is rendered (44_teletext.md R295). -/
def Scan.holdMosaic (st : Scan) (code : Byte) : Scan :=
  if st.isMosaic code then { st with held := some (code, st.sep) } else st

/-- The scan state left by one cell: phase 1, the cell, phase 3 (44_teletext.md R286, R295). -/
def Scan.next (st : Scan) (code : Byte) : Scan := ((st.setAt code).holdMosaic code).setAfter code

/-- The scan state before column `col` (44_teletext.md R282). -/
def scanBefore (rd : LineRead → Byte) : Nat → Scan
  | 0 => .start
  | col + 1 => (scanBefore rd col).next (ttCode (rd (.cell col)))

/-! ## Cell content -/

/-- `lower`: this row is the lower half of a double-height row (44_teletext.md R285). -/
def ttLower (c : TtCfg) (x : LineCtx) : Bool :=
  if ttSubline c x.target = 0 then (if ttRow c x.target = 0 then false else x.lowerNext) else x.lowerCur

/-- `erow` of a cell (44_teletext.md R291). -/
def Scan.erow (st : Scan) (k : Nat) (lower : Bool) : Nat :=
  if st.dh then (if lower then 10 + k / 2 else k / 2) else k

/-- TT_GLYPH(code, erow) (44_teletext.md R293). -/
def ttGlyph (c : TtCfg) (code : Byte) (erow : Nat) : BitVec 12 := Sparse.get 0#12 c.glyph (erow * 128 + code.toNat)

/-- TT_MOSAIC(code[5:0], erow, sep, low) (44_teletext.md R294). -/
def ttMosaic (c : TtCfg) (code : Byte) (erow : Nat) (sep low : Bool) : BitVec 12 :=
  Sparse.get 0#12 c.mosaic (erow * 256 + code.toNat % 64 * 4 + sep.toNat * 2 + low.toNat)

/-- The cell's bitmap before flash, conceal and cursor, in the state after phase 1 (44_teletext.md R292-R296). -/
def Scan.bitmap (st : Scan) (c : TtCfg) (code : Byte) (k : Nat) (lower : Bool) : BitVec 12 :=
  if isControl code then
    match st.hold, st.held with
    | true, some (hc, hs) => ttMosaic c hc (st.erow k lower) hs (st.dh && lower)
    | _, _ => 0#12
  else if st.isMosaic code then ttMosaic c code (st.erow k lower) st.sep (st.dh && lower)
  else ttGlyph c code (st.erow k lower)

/-- The cursor overlays the cell at column `col` (44_teletext.md R299). -/
def ttCursorOn (c : TtCfg) (x : LineCtx) (col : Nat) : Bool :=
  ttOffset c x col == x.ttCursor && decide (c.cursorBandStart ≤ ttSubline c x.target) && cursorBlinkOn c x.fc

/-- The cell's bitmap after flash, conceal and cursor (44_teletext.md R297-R299). -/
def Scan.shown (st : Scan) (c : TtCfg) (x : LineCtx) (col : Nat) (bm : BitVec 12) : BitVec 12 :=
  let bm1 := if st.flash && !flashVisible x.fc then 0#12 else bm
  let bm2 := if st.conceal && !x.reveal then 0#12 else bm1
  if ttCursorOn c x col then bm2 ^^^ 0xFFF#12 else bm2

/-- A cell as it is shown: its bitmap and its two colour numbers. -/
structure TtCell where
  bm : BitVec 12
  fg : BitVec 3
  bg : BitVec 3
  deriving DecidableEq, Repr

/-- The cell at column `col`: rendered with the state after its code's phase 1 (44_teletext.md R286). -/
def ttCell (c : TtCfg) (x : LineCtx) (rd : LineRead → Byte) (col : Nat) : TtCell :=
  let code := ttCode (rd (.cell col))
  let st := (scanBefore rd col).setAt code
  { bm := st.shown c x col (st.bitmap c code (ttSubline c x.target) (ttLower c x)), fg := st.fg, bg := st.bg }

/-- TT_PALETTE (44_teletext.md R302). -/
def ttColour (c : TtCfg) (n : BitVec 3) : Pixel := Sparse.get 0#8 c.palette n.toNat

/-- Dot x of a cell (44_teletext.md R300). -/
def TtCell.dot (cell : TtCell) (c : TtCfg) (x : Nat) : Pixel :=
  ttColour c (if cell.bm.getLsbD (11 - x) then cell.fg else cell.bg)

/-- Output pixel p lies in the active horizontal span (44_teletext.md R280). -/
def ttInSpan (c : TtCfg) (p : Nat) : Bool :=
  decide (c.hStart ≤ p) && decide (p < c.hStart + Config.ttCols * Config.ttCellW * c.xscale)

/-- The column that output pixel p shows (44_teletext.md R300). -/
def ttColumnOf (c : TtCfg) (p : Nat) : Nat := (p - c.hStart) / c.xscale / Config.ttCellW

/-- Output pixel p of TT_LINE (44_teletext.md R280, R300). -/
def ttPixel (c : TtCfg) (x : LineCtx) (rd : LineRead → Byte) (p : Nat) : Pixel :=
  if ttActive c x.target && ttInSpan c p then
    (ttCell c x rd (ttColumnOf c p)).dot c ((p - c.hStart) / c.xscale % Config.ttCellW)
  else c.border

/-- The reads the line makes: each column's byte once (44_teletext.md R282). -/
def ttReads (c : TtCfg) (x : LineCtx) : List LineRead :=
  if ttActive c x.target then (List.range Config.ttCols).map .cell else []

/-- Every byte of columns below `n` has been read. -/
def ttKnownBelow (known : LineRead → Option Byte) (n : Nat) : Bool := (List.range n).all fun i => (known (.cell i)).isSome

/-- Every read that output pixel p depends on has been made: its column and the columns before it (44_teletext.md R282). -/
def ttPixelReady (c : TtCfg) (x : LineCtx) (known : LineRead → Option Byte) (p : Nat) : Bool :=
  if ttActive c x.target && ttInSpan c p then ttKnownBelow known (ttColumnOf c p + 1) else true

/-- The lookahead bookkeeping a call commits (44_teletext.md R285, R290); an inactive line commits none (R280). -/
def ttCommit (s : State) (x : LineCtx) (rd : LineRead → Byte) : State :=
  if ttActive s.cfg.tt x.target then
    let rowDh := (scanBefore rd Config.ttCols).rowDh
    if ttSubline s.cfg.tt x.target = 0 then { s with ttLowerCur := ttLower s.cfg.tt x, ttLowerNext := rowDh }
    else { s with ttLowerNext := s.ttLowerNext || rowDh }
  else s

/-- EXP(q, f, b): the nibble expansion of R301, byte j (byte 0 the least significant) is f where q[3 - j] = 1. -/
def ttExpand (q : BitVec 4) (f b : Pixel) : BitVec 32 :=
  (if q.getLsbD 0 then f else b) ++ (if q.getLsbD 1 then f else b) ++ (if q.getLsbD 2 then f else b) ++
    (if q.getLsbD 3 then f else b)

/-! ## CRTC-style latch -/

/-- The data port's effect by `tt_crtc_idx` (44_teletext.md R305). -/
def State.crtcData (s : State) (v : Byte) : State :=
  if s.ttCrtcIdx = s.cfg.tt.crtcStartHi then { s with ttStart := v ++ s.ttStart.extractLsb' 0 8 }
  else if s.ttCrtcIdx = s.cfg.tt.crtcStartLo then { s with ttStart := s.ttStart.extractLsb' 8 8 ++ v }
  else if s.ttCrtcIdx = s.cfg.tt.crtcCursorHi then { s with ttCursor := v ++ s.ttCursor.extractLsb' 0 8 }
  else if s.ttCrtcIdx = s.cfg.tt.crtcCursorLo then { s with ttCursor := s.ttCursor.extractLsb' 8 8 ++ v }
  else s

/-- The address port's effect (44_teletext.md R304). -/
def State.crtcIndex (s : State) (v : Byte) : State := { s with ttCrtcIdx := v }

end Sys2Proof.Machine
end

