-- ==== Sys2Proof/Machine/Event.lean ====
section
/-! DEFINITION. The consumer side of the EventStream (41_eventstream.md R164-R167) and the event dispatch
(45_audio.md R345-R347). -/

namespace Sys2Proof.Machine

/-! ## POLL_EVENT's sub-actions (41_eventstream.md R164) -/

/-- The result of a poll that finds the ring empty. -/
def PollFor.emptyResult : PollFor → Result
  | .poll => .polled none
  | .dispatch => .empty

/-- Sub-action (1): sample W; on an empty ring the operation is over, otherwise resynchronise R (R165). -/
def State.pollSample (s : State) (op : PollFor) : State :=
  if s.evEmpty then s.answer .irq op.emptyResult
  else { s with R := s.resynced s.W, irqPhase := .polling s.W op }

/-- Sub-action (2): read slot R mod C and advance R; a POLL_EVENT returns the record, an EVENT_DISPATCH goes on with it. -/
def State.pollTake (s : State) (op : PollFor) : State :=
  match op with
  | .poll => { s with R := s.R + 1#32, irqPhase := .idle }.answer .irq (.polled (some (s.evSlot s.R)))
  | .dispatch => { s with R := s.R + 1#32, irqPhase := .delivering (s.evSlot s.R) }

/-! ## EVENT_DISPATCH's sub-action (3) (45_audio.md R345) -/

/-- CLASSIFY (45_audio.md R346): the tests in this order, the first match wins. -/
def classify (c : Cfg) (a : Addr) : EventClass :=
  if c.audio.base.toNat ≤ a.toNat && a.toNat < c.audio.base.toNat + c.audio.woLen then .audio
  else if a = c.tt.crtcAddr then .crtcIndex
  else if a = c.tt.crtcData then .crtcData
  else .ignored

/-- The entry of a register write: its offset from AUDIO_BASE (in 8 bits, log 15) and its value (30_encoding.md R98). -/
def audioEntry (c : Cfg) (loc : Addr) (v : Byte) : Entry := ⟨(loc - c.audio.base).setWidth 8, v.setWidth 9⟩

/-- The effect of a record for `loc` whose cell now holds `v` (45_audio.md R345). -/
def State.applyEvent (s : State) (loc : Addr) (v : Byte) : State :=
  match classify s.cfg loc with
  | .audio => s.afPush (audioEntry s.cfg loc v)
  | .crtcIndex => s.crtcIndex v
  | .crtcData => s.crtcData v
  | .ignored => s

/-- Sub-action (3): re-read the cell, classify, apply, and return Handled (45_audio.md R345). -/
def State.deliver (s : State) (loc : Addr) : State :=
  { s.applyEvent loc (s.readByte loc) with irqPhase := .idle }.answer .irq (.handled loc (classify s.cfg loc))

/-- The next sub-action of the IRQ operation in progress. `irq_enabled` is not asked: 60_exceptions.md R386 lets an operation
already at Polling finish; for an EVENT_DISPATCH whose interrupt is disabled between its sub-actions (2) and (3) it leaves open
whether (3) is enabled, and here it is (DEDUCED, log 11). -/
def State.irqAdvance (s : State) : State :=
  match s.irqPhase with
  | .idle => s
  | .polling _ op => s.pollTake op
  | .delivering loc => s.deliver loc

/-! ## Meanings -/

/-- POLL_EVENT (41_eventstream.md R164): both sub-actions with nothing between. -/
def execPollEvent (s : State) : Host.Outcome State Fault Refusal :=
  issue s.admitPoll s (s.pollSample .poll).irqAdvance

/-- EVENT_DISPATCH (45_audio.md R345): the three sub-actions with nothing between. -/
def execEventDispatch (s : State) : Host.Outcome State Fault Refusal :=
  issue s.admitPoll s (s.pollSample .dispatch).irqAdvance.irqAdvance

end Sys2Proof.Machine
end

