-- ==== Sys2Proof/Machine/Attr80.lean ====
section
/-! DEFINITION. The Attributed 80-column line function, A80_LINE (43_scanline_decode.md R255-R260). -/

namespace Sys2Proof.Machine

/-- The line is inside the active vertical window (43_scanline_decode.md R255). -/
def a80Active (c : A80Cfg) (t : Nat) : Bool := decide (c.vStart ≤ t) && decide (t < c.vStart + c.rows * c.gh)

/-- Row r (43_scanline_decode.md R255). -/
def a80Row (c : A80Cfg) (t : Nat) : Nat := (t - c.vStart) / c.gh

/-- Glyph row s (43_scanline_decode.md R255). -/
def a80GlyphRow (c : A80Cfg) (t : Nat) : Nat := (t - c.vStart) % c.gh

/-- The character byte of column `col` (43_scanline_decode.md R257). -/
def a80CharAddr (c : A80Cfg) (t col : Nat) : Addr := c.base + BitVec.ofNat 16 (80 * a80Row c t + col)

/-- The attribute byte of column `col` (43_scanline_decode.md R257). -/
def a80AttrAddr (c : A80Cfg) (t col : Nat) : Addr := c.attrBase + BitVec.ofNat 16 (80 * a80Row c t + col)

/-- `aen = c1[0]`, the attribute-plane enable (43_scanline_decode.md R256). -/
def a80AttrEnable (c1 : Byte) : Bool := c1.getLsbD 0

/-- `set = c1[1]`, the palette set (43_scanline_decode.md R256). -/
def a80Set (c1 : Byte) : Nat := (c1.getLsbD 1).toNat

/-- fg, bg and ul of a column (43_scanline_decode.md R256, R257). -/
structure A80Style where
  fg : BitVec 3
  bg : BitVec 3
  ul : Bool
  deriving DecidableEq, Repr

/-- The style of a column: its attribute byte where the plane is enabled, else the defaults (43_scanline_decode.md R257). -/
def a80Style (rd : LineRead → Byte) (col : Nat) : A80Style :=
  if a80AttrEnable (rd .ctrl1) then
    { fg := (rd (.attr col)).extractLsb' 0 3, bg := (rd (.attr col)).extractLsb' 3 3, ul := (rd (.attr col)).getLsbD 6 }
  else { fg := (rd .ctrl0).extractLsb' 0 3, bg := (rd .ctrl0).extractLsb' 4 3, ul := false }

/-- A80_PAL[set][colour] (43_scanline_decode.md R258). -/
def a80Colour (c : A80Cfg) (set : Nat) (colour : BitVec 3) : Pixel := Sparse.get 0#8 c.pal (set * 8 + colour.toNat)

/-- The glyph row shown: A80_GLYPH[ch][s], or all eight dots on the underline row (43_scanline_decode.md R258, R259). -/
def a80Dots (c : A80Cfg) (ch : Byte) (ul : Bool) (s : Nat) : Byte :=
  if ul && s == c.ulRow then 0xFF#8 else Sparse.get 0#8 c.glyph (s * 256 + ch.toNat)

/-- Output pixel p lies in the active horizontal span (43_scanline_decode.md R255). -/
def a80InSpan (c : A80Cfg) (p : Nat) : Bool := decide (c.hStart ≤ p) && decide (p < c.hStart + 640)

/-- Output pixel p of A80_LINE (43_scanline_decode.md R255, R258). -/
def a80Pixel (c : A80Cfg) (x : LineCtx) (rd : LineRead → Byte) (p : Nat) : Pixel :=
  if a80Active c x.target && a80InSpan c p then
    let col := (p - c.hStart) / 8
    let st := a80Style rd col
    let dots := a80Dots c (rd (.ch col)) st.ul (a80GlyphRow c x.target)
    a80Colour c (a80Set (rd .ctrl1)) (if dots.getLsbD (7 - (p - c.hStart) % 8) then st.fg else st.bg)
  else c.border

/-- The reads the line may make, as far as the bytes already read tell (43_scanline_decode.md R256, R257). The order of the reads
is unspecified (42_scanline_pipeline.md R207), so before A80_CTRL1 is read an attribute byte may be; where the plane turns out to
be disabled it is without effect (log 12). -/
def a80Reads (c : A80Cfg) (x : LineCtx) (known : LineRead → Option Byte) : List LineRead :=
  if a80Active c x.target then
    [.ctrl0, .ctrl1] ++ (List.range 80).map .ch ++
      (if (known .ctrl1).all a80AttrEnable then (List.range 80).map .attr else [])
  else []

/-- Every read that output pixel p depends on has been made (42_scanline_pipeline.md R207). -/
def a80PixelReady (c : A80Cfg) (x : LineCtx) (known : LineRead → Option Byte) (p : Nat) : Bool :=
  if a80Active c x.target && a80InSpan c p then
    match known .ctrl1 with
    | none => false
    | some c1 =>
      (known (.ch ((p - c.hStart) / 8))).isSome &&
        (if a80AttrEnable c1 then (known (.attr ((p - c.hStart) / 8))).isSome else (known .ctrl0).isSome)
  else true

/-- `LUT[k] = (P(pp[1]), P(pp[0]))` for the 9-bit key `{bg[2:0], set, fg[2:0], pp[1:0]}` (43_scanline_decode.md R260): the
table is a function of the palette, not state. -/
def a80Lut (c : A80Cfg) (k : BitVec 9) : Pixel × Pixel :=
  let bg : BitVec 3 := k.extractLsb' 6 3
  let set : Nat := (k.getLsbD 5).toNat
  let fg : BitVec 3 := k.extractLsb' 2 3
  (a80Colour c set (if k.getLsbD 1 then fg else bg), a80Colour c set (if k.getLsbD 0 then fg else bg))

end Sys2Proof.Machine
end

