-- ==== Sys2Proof/Machine/Vdg.lean ====
section
/-! DEFINITION. The VDG line function, VDG_LINE (43_scanline_decode.md R230-R250). Each function takes the configuration,
the step's context, and `rd`, the byte each named shadow read returned. -/

namespace Sys2Proof.Machine

/-- The line is inside the active vertical window (43_scanline_decode.md R230). -/
def vdgActive (c : VdgCfg) (t : Nat) : Bool := decide (c.vStart ≤ t) && decide (t < c.vStart + c.vLines)

/-- The mode nibble m of the byte at MODE_ADDR (43_scanline_decode.md R231). -/
def vdgNibble (c : VdgCfg) (b : Byte) : BitVec 4 := (b >>> c.modeShift).setWidth 4

/-- The alternate-palette bit of the byte at CSS_ADDR (43_scanline_decode.md R231). -/
def vdgCss (c : VdgCfg) (b : Byte) : Nat := (b >>> c.cssBit).toNat % 2

/-- The variants (43_scanline_decode.md R232). -/
inductive VdgVariant where
  | text
  | gfx (g : Geometry)
  | border
  deriving DecidableEq, Repr

/-- MODE_TABLE(m) (43_scanline_decode.md R233). -/
def modeEntry : Table Geometry → Nat → Option Geometry
  | [], _ => none
  | (k, g) :: t, m => if k = m then some g else modeEntry t m

/-- VARIANT(m) (43_scanline_decode.md R232). -/
def vdgVariant (c : VdgCfg) (m : BitVec 4) : VdgVariant :=
  if m.getLsbD 0 = false then .text
  else match modeEntry c.modeTable m.toNat with
    | some g => .gfx g
    | none => .border

/-- DIV (43_scanline_decode.md R237). -/
def VdgVariant.div : VdgVariant → Nat
  | .text => 12 | .gfx g => g.div.toNat | .border => 1

/-- STRIDE; also the number of row bytes the line reads (43_scanline_decode.md R237, R238, R242). -/
def VdgVariant.stride : VdgVariant → Nat
  | .text => 32 | .gfx g => g.stride | .border => 0

/-- No variant's row is longer: h_res is at most 256 and bpp at most 2 (43_scanline_decode.md R233). -/
def vdgLongestRow : Nat := 64

/-- `rb`: the row base the line uses (43_scanline_decode.md R234, R235). -/
def vdgRowBase (c : VdgCfg) (x : LineCtx) : Addr := if x.target = c.vStart then 0#16 else x.rowBase

/-- `lc`: the line count the line uses in mode `m` (43_scanline_decode.md R234, R235). -/
def vdgLineCount (c : VdgCfg) (x : LineCtx) (m : BitVec 4) : Nat :=
  if x.target = c.vStart then 0
  else if x.lastMode = some m then x.lineCount.toNat
  else 0

/-- The k-th byte of the row is read at VRAM_BASE + rb + k, wrapped (43_scanline_decode.md R238, R242). -/
def vdgRowAddr (c : VdgCfg) (x : LineCtx) (k : Nat) : Addr := c.vramBase + vdgRowBase c x + BitVec.ofNat 16 k

/-! ## Packed graphics -/

/-- The field of logical pixel j in its byte (43_scanline_decode.md R239). -/
def gfxField (g : Geometry) (byte : Byte) (j : Nat) : Nat :=
  byte.toNat >>> (8 - g.bpp.bits - (j * g.bpp.bits) % 8) % 2 ^ g.bpp.bits

/-- The palette lookup (43_scanline_decode.md R240). -/
def gfxColour (c : VdgCfg) (g : Geometry) (css f : Nat) : Pixel :=
  match g.bpp with
  | .one => Sparse.get 0#8 c.pal2 (css * 2 + f)
  | .two => Sparse.get 0#8 c.pal4 (css * 4 + f)

/-- Rp: output pixels per logical pixel (43_scanline_decode.md R241). -/
def gfxReplication (c : VdgCfg) (g : Geometry) : Nat := (256 / g.hRes.pixels) * c.xscale

/-! ## Text and semigraphics -/

/-- CHAR_DECODE (43_scanline_decode.md R243). -/
def charCell (c : VdgCfg) (ch : Byte) : CharCell := Sparse.get (.alpha false 0#8 false) c.charDecode ch.toNat

/-- GLYPH[bank][idx][s] (43_scanline_decode.md R244). -/
def vdgGlyph (c : VdgCfg) (bank : Bool) (idx : Byte) (s : Nat) : Byte :=
  Sparse.get 0#8 c.glyph (s * 512 + bank.toNat * 256 + idx.toNat)

/-- Dot x of a cell at sub-scanline s (43_scanline_decode.md R244, R245, R247, R248). -/
def textDot (c : VdgCfg) (css : Nat) (cell : CharCell) (s x : Nat) : Pixel :=
  match cell with
  | .alpha bank idx inv =>
    if (vdgGlyph c bank idx s).getLsbD (7 - x) != inv then Sparse.get 0#8 c.textFg css
    else Sparse.get 0#8 c.textBg css
  | .semi4 bits colour =>
    if bits.getLsbD ((if x < 4 then 3 else 2) - 2 * (s / 6)) then colour else c.semiBg
  | .semi6 bits colour =>
    if bits.getLsbD ((if x < 4 then 5 else 4) - 2 * (s / 4)) then colour else c.semiBg

/-! ## The line -/

/-- Output pixel x lies in the active horizontal span (43_scanline_decode.md R230). -/
def vdgInSpan (c : VdgCfg) (x : Nat) : Bool := decide (c.hStart ≤ x) && decide (x < c.hStart + 256 * c.xscale)

/-- The row byte that output pixel p of a graphics line shows (43_scanline_decode.md R238, R241). -/
def gfxByteOf (c : VdgCfg) (g : Geometry) (p : Nat) : Nat :=
  (p - c.hStart) / gfxReplication c g * g.bpp.bits / 8

/-- The column that output pixel p of a text line shows (43_scanline_decode.md R249). -/
def textColumnOf (c : VdgCfg) (p : Nat) : Nat := (p - c.hStart) / c.xscale / 8

/-- Output pixel p of VDG_LINE (43_scanline_decode.md R230). -/
def vdgPixel (c : VdgCfg) (x : LineCtx) (rd : LineRead → Byte) (p : Nat) : Pixel :=
  if vdgActive c x.target && vdgInSpan c p then
    match vdgVariant c (vdgNibble c (rd .mode)) with
    | .border => c.border
    | .text =>
      textDot c (vdgCss c (rd .css)) (charCell c (rd (.row (textColumnOf c p))))
        (vdgLineCount c x (vdgNibble c (rd .mode))) ((p - c.hStart) / c.xscale % 8)
    | .gfx g =>
      gfxColour c g (vdgCss c (rd .css))
        (gfxField g (rd (.row (gfxByteOf c g p))) ((p - c.hStart) / gfxReplication c g))
  else c.border

/-- The reads the line may make, as far as the bytes already read tell (43_scanline_decode.md R231, R238, R242). The address of a
row byte does not depend on the mode, and the order of the reads is unspecified (42_scanline_pipeline.md R207), so before the
mode is read every byte of the longest row may be; one that the mode turns out not to use is without effect (log 12). -/
def vdgReads (c : VdgCfg) (x : LineCtx) (known : LineRead → Option Byte) : List LineRead :=
  if vdgActive c x.target then
    [.mode, .css] ++
      (List.range (match known .mode with
        | none => vdgLongestRow
        | some b => (vdgVariant c (vdgNibble c b)).stride)).map .row
  else []

/-- Every read that output pixel p depends on has been made (42_scanline_pipeline.md R207). -/
def vdgPixelReady (c : VdgCfg) (x : LineCtx) (known : LineRead → Option Byte) (p : Nat) : Bool :=
  if vdgActive c x.target && vdgInSpan c p then
    match known .mode with
    | none => false
    | some b =>
      match vdgVariant c (vdgNibble c b) with
      | .border => true
      | .text =>
        match known (.row (textColumnOf c p)) with
        | none => false
        | some ch =>
          match charCell c ch with
          | .alpha _ _ _ => (known .css).isSome
          | .semi4 _ _ | .semi6 _ _ => true
      | .gfx g => (known .css).isSome && (known (.row (gfxByteOf c g p))).isSome
  else true

/-- Row advance: the bookkeeping an active VDG line commits (43_scanline_decode.md R236); an inactive one commits none
(R230). -/
def vdgCommit (s : State) (x : LineCtx) (rd : LineRead → Byte) : State :=
  if vdgActive s.cfg.vdg x.target then
    let m := vdgNibble s.cfg.vdg (rd .mode)
    let v := vdgVariant s.cfg.vdg m
    let rb := vdgRowBase s.cfg.vdg x
    let lc := vdgLineCount s.cfg.vdg x m + 1
    if v.div ≤ lc then { s with rowBase := rb + BitVec.ofNat 16 v.stride, lineCount := 0#8, lastMode := some m }
    else { s with rowBase := rb, lineCount := BitVec.ofNat 8 lc, lastMode := some m }
  else s

end Sys2Proof.Machine
end

