-- ==== Sys2Proof/Machine/Scanline.lean ====
section
/-! DEFINITION. The scanline pipeline (42_scanline_pipeline.md R190-R208): the request path, the render step and its
sub-actions, the pool's read port, the renderer selection, and SET_REVEAL (44_teletext.md R306). -/

namespace Sys2Proof.Machine

/-! ## LINE(renderer, t) (42_scanline_pipeline.md R198) -/

/-- Output pixel p of the line. -/
def linePixel (c : Cfg) (x : LineCtx) (rd : LineRead → Byte) (p : Nat) : Pixel :=
  match x.renderer with
  | .vdg => vdgPixel c.vdg x rd p
  | .teletext => ttPixel c.tt x rd p
  | .attr80 => a80Pixel c.a80 x rd p

/-- All LINE_PIXELS pixels of the line (42_scanline_pipeline.md R198). -/
def linePixels (c : Cfg) (x : LineCtx) (rd : LineRead → Byte) : List Pixel :=
  (List.range c.linePixels).map (linePixel c x rd)

/-- The shadow address of a read (43_scanline_decode.md R231, R238, R242, R256, R257; 44_teletext.md R281). -/
def lineReadAddr (c : Cfg) (x : LineCtx) : LineRead → Addr
  | .mode => c.vdg.modeAddr
  | .css => c.vdg.cssAddr
  | .row k => vdgRowAddr c.vdg x k
  | .ctrl0 => c.a80.ctrl0
  | .ctrl1 => c.a80.ctrl1
  | .ch col => a80CharAddr c.a80 x.target col
  | .attr col => a80AttrAddr c.a80 x.target col
  | .cell col => ttCellAddr c.tt x col

/-- The reads the line may make, as far as the bytes already read tell (42_scanline_pipeline.md R207). -/
def lineReads (c : Cfg) (x : LineCtx) (known : LineRead → Option Byte) : List LineRead :=
  match x.renderer with
  | .vdg => vdgReads c.vdg x known
  | .teletext => ttReads c.tt x
  | .attr80 => a80Reads c.a80 x known

/-- Every read that output pixel p depends on has been made (42_scanline_pipeline.md R207). -/
def linePixelReady (c : Cfg) (x : LineCtx) (known : LineRead → Option Byte) (p : Nat) : Bool :=
  match x.renderer with
  | .vdg => vdgPixelReady c.vdg x known p
  | .teletext => ttPixelReady c.tt x known p
  | .attr80 => a80PixelReady c.a80 x known p

/-- A read may be made now: teletext columns are read in ascending order (44_teletext.md R282; log 12). -/
def lineReadReady (known : LineRead → Option Byte) : LineRead → Bool
  | .cell col => ttKnownBelow known col
  | .mode | .css | .row _ | .ctrl0 | .ctrl1 | .ch _ | .attr _ => true

/-- The bookkeeping the step commits (42_scanline_pipeline.md R195 sub-action "last"); the 80-column mode keeps none
(43_scanline_decode.md R255). -/
def State.commitLine (s : State) (x : LineCtx) (rd : LineRead → Byte) : State :=
  match x.renderer with
  | .vdg => vdgCommit s x rd
  | .teletext => ttCommit s x rd
  | .attr80 => s

/-! ## The render step (42_scanline_pipeline.md R195) -/

/-- The target line of a popped request P (42_scanline_pipeline.md R196). -/
def targetLine (c : Cfg) (p : Word32) : Nat := (p.toNat + c.nPool - 1) % c.frameLines

/-- The context of a step for target line t with the renderer latched for the frame (42_scanline_pipeline.md R199). -/
def State.lineCtx (s : State) (r : Renderer) (t : Nat) : LineCtx where
  renderer := r
  target := t
  rowBase := s.rowBase
  lineCount := s.lineCount
  lastMode := s.lastMode
  lowerNext := s.ttLowerNext
  lowerCur := s.ttLowerCur
  fc := s.fc
  reveal := s.reveal
  ttStart := s.ttStart
  ttCursor := s.ttCursor

/-- The renderer in force for the frame after a step with target line t (42_scanline_pipeline.md R199). -/
def State.latched (s : State) (t : Nat) : Renderer := if t = 0 then s.rendererCfg else s.rendererFrame

/-- Sub-action (1): pop a token; VSYNC counts a frame and ends the step (R200); a line request fixes the target, the slot
(R197) and the frame's renderer (R199), and the step goes on. -/
def State.stepPop (s : State) : State :=
  match s.rqTop with
  | .vsync => { s.rqPop with fc := s.fc + 1#32 }
  | .line p =>
    let t := targetLine s.cfg p
    let slot := t % s.cfg.nPool
    let r := s.latched t
    { s.rqPop with
      rendererFrame := r
      rendPhase := .rendering (s.lineCtx r t) slot [] []
      writingSlot := some slot }

/-- The last sub-action: commit the bookkeeping and end the step. -/
def State.stepCommit (s : State) (x : LineCtx) (rd : LineRead → Byte) : State :=
  { s.commitLine x rd with writingSlot := none, rendPhase := .idle }

/-- The byte a read returns when it is made now. -/
def State.liveRead (s : State) (x : LineCtx) (r : LineRead) : Byte := s.readByte (lineReadAddr s.cfg x r)

/-- The rest of a step after sub-action (1), with nothing between its sub-actions. -/
def State.stepFinish (s : State) : State :=
  match s.rendPhase with
  | .idle => s
  | .rendering x slot _ _ =>
    (s.writeLine slot (linePixels s.cfg x (s.liveRead x))).stepCommit x (s.liveRead x)

/-! ## The render step by sub-actions -/

/-- The byte a read returned, if it has been made. -/
def knownRead : List (LineRead × Byte) → LineRead → Option Byte
  | [], _ => none
  | (r, v) :: m, q => if r = q then some v else knownRead m q

/-- The byte a read returned; 0 stands for a read not made, which no enabled pixel write or commit depends on. -/
def readOr0 (m : List (LineRead × Byte)) (q : LineRead) : Byte := (knownRead m q).getD 0#8

/-- The context a shadow read of LINE is made in: the line scan begins with LINE's first shadow read and takes `reveal`,
`tt_start` and `tt_cursor` as they stand then, for the whole scan (42_scanline_pipeline.md R195 sub-actions 2..k; 44_teletext.md
R305, R306; log 13). -/
def State.scanCtx (s : State) (x : LineCtx) (reads : List (LineRead × Byte)) : LineCtx :=
  if reads.isEmpty then { x with reveal := s.reveal, ttStart := s.ttStart, ttCursor := s.ttCursor } else x

/-- The shadow read `r` of the step in progress, if the line may make it and it has not been made. -/
def State.rendRead (s : State) (r : LineRead) : State :=
  match s.rendPhase with
  | .idle => s
  | .rendering x slot reads written =>
    if (lineReads s.cfg x (knownRead reads)).contains r && (knownRead reads r).isNone &&
        lineReadReady (knownRead reads) r then
      { s with rendPhase :=
          .rendering (s.scanCtx x reads) slot ((r, s.liveRead (s.scanCtx x reads) r) :: reads) written }
    else s

/-- The write of pixel p of the step in progress, if it has not been made and every read it depends on has
(42_scanline_pipeline.md R207). -/
def State.rendWrite (s : State) (p : Nat) : State :=
  match s.rendPhase with
  | .idle => s
  | .rendering x slot reads written =>
    if p < s.cfg.linePixels && !written.contains p && linePixelReady s.cfg x (knownRead reads) p then
      { s.writePixel slot p (linePixel s.cfg x (readOr0 reads) p) with
        rendPhase := .rendering x slot reads (p :: written) }
    else s

/-- The first read of the line not made yet; the control bytes come first, so it is one the line makes. -/
def nextRead (c : Cfg) (x : LineCtx) (reads : List (LineRead × Byte)) : Option LineRead :=
  (lineReads c x (knownRead reads)).find? fun r => (knownRead reads r).isNone

/-- The first pixel not written yet. -/
def nextPixel (c : Cfg) (written : List Nat) : Option Nat := (List.range c.linePixels).find? fun p => !written.contains p

/-- The next sub-action of the step in progress in the order of the pseudocode: the reads, the pixel writes, the commit
(42_scanline_pipeline.md R195). -/
def State.rendAdvance (s : State) : State :=
  match s.rendPhase with
  | .idle => s
  | .rendering x _ reads written =>
    match nextRead s.cfg x reads with
    | some r => s.rendRead r
    | none =>
      match nextPixel s.cfg written with
      | some p => s.rendWrite p
      | none => s.stepCommit x (readOr0 reads)

/-! ## Meanings -/

/-- The line index a request is reduced to (42_scanline_pipeline.md R192). -/
def requestLine (c : Cfg) (line : Word32) : Nat := line.toNat % c.frameLines

/-- RENDER_LINE, line form (42_scanline_pipeline.md R191). -/
def execRenderLine (line : Word32) (s : State) : Host.Outcome State Fault Refusal :=
  issue .go s
    ((s.rqPush (.line (BitVec.ofNat 32 (requestLine s.cfg line)))).answer .vid
      (.slot (some (requestLine s.cfg line % s.cfg.nPool))))

/-- RENDER_LINE, vsync form (42_scanline_pipeline.md R194). -/
def execRenderLineVsync (s : State) : Host.Outcome State Fault Refusal :=
  issue .go s ((s.rqPush .vsync).answer .vid (.slot none))

/-- RENDER_STEP (42_scanline_pipeline.md R195): every sub-action with nothing between. -/
def execRenderStep (s : State) : Host.Outcome State Fault Refusal :=
  issue s.admitRender s s.stepPop.stepFinish

/-- POOL_READ (42_scanline_pipeline.md R201). -/
def execPoolRead (slot : Byte) (x : BitVec 16) (s : State) : Host.Outcome State Fault Refusal :=
  issue (s.admitPoolRead slot x) s (s.answer .vid (.pixel (s.poolAt slot.toNat x.toNat)))

/-- SET_RENDERER (42_scanline_pipeline.md R205). -/
def execSetRenderer (sel : BitVec 2) (s : State) : Host.Outcome State Fault Refusal :=
  issue (s.admitRenderer sel) s { s with rendererCfg := (rendererOf sel).getD s.rendererCfg }

/-- SET_REVEAL (44_teletext.md R306). -/
def execSetReveal (v : Bool) (s : State) : Host.Outcome State Fault Refusal := issue s.admitSw s { s with reveal := v }

end Sys2Proof.Machine
end

