-- ==== Sys2Proof/Machine/Dispatch.lean ====
section
/-! DEFINITION. One arm per operation (30_encoding.md R92): `exec i s` is operation i issued by its agent in state s and run
to its end with no other agent's action between its sub-actions (00_scope.md R10). -/

namespace Sys2Proof.Machine

def exec (i : Instr) (s : State) : Host.Outcome State Fault Refusal :=
  match i with
  | .busWr addr data => Sys2Proof.Machine.execBusWr addr data s
  | .busRd addr => Sys2Proof.Machine.execBusRd addr s
  | .capPause => Sys2Proof.Machine.execCapPause s
  | .capResume => Sys2Proof.Machine.execCapResume s
  | .setIrqEnable v => Sys2Proof.Machine.execSetIrqEnable v s
  | .setPerm flags base len => Sys2Proof.Machine.execSetPerm flags base len s
  | .shadowRd addr => Sys2Proof.Machine.execShadowRd addr s
  | .shadowWr addr data => Sys2Proof.Machine.execShadowWr addr data s
  | .pollEvent => Sys2Proof.Machine.execPollEvent s
  | .eventDispatch => Sys2Proof.Machine.execEventDispatch s
  | .renderLine line => Sys2Proof.Machine.execRenderLine line s
  | .renderLineVsync => Sys2Proof.Machine.execRenderLineVsync s
  | .renderStep => Sys2Proof.Machine.execRenderStep s
  | .poolRead slot x => Sys2Proof.Machine.execPoolRead slot x s
  | .setRenderer sel => Sys2Proof.Machine.execSetRenderer sel s
  | .setReveal v => Sys2Proof.Machine.execSetReveal v s
  | .audioInit => Sys2Proof.Machine.execAudioInit s
  | .audioTick => Sys2Proof.Machine.execAudioTick s
  | .audioReset => Sys2Proof.Machine.execAudioReset s

end Sys2Proof.Machine
end

