-- ==== Sys2Proof/Machine/Sched.lean ====
section
/-! DEFINITION. How agents take turns (00_scope.md R6, R10; 20_memory.md R71; 70_reset_and_hazards.md R422): the schedule,
the issue of an agent's next word, an operation's first sub-action, and the sub-actions of an operation in progress. -/

namespace Sys2Proof.Machine

/-! ## The agents' words -/

/-- An agent's words still to issue. -/
def Programs.get (p : Programs) : Agent → List Txn
  | .bus => p.bus | .sw => p.sw | .irq => p.irq | .rend => p.rend | .vid => p.vid | .aud => p.aud

/-- Replaces an agent's words. -/
def Programs.put (p : Programs) (a : Agent) (ws : List Txn) : Programs :=
  match a with
  | .bus => { p with bus := ws } | .sw => { p with sw := ws } | .irq => { p with irq := ws }
  | .rend => { p with rend := ws } | .vid => { p with vid := ws } | .aud => { p with aud := ws }

/-- The word `irq_service` issues: EVENT_DISPATCH (30_encoding.md R103). -/
def dispatchWord : Txn := 0x2100000000000000#64

/-- The word an agent issues next: inside `irq_service` the IRQ agent issues EVENT_DISPATCH once the last one is finished
(30_encoding.md R103, 60_exceptions.md R386); otherwise an agent issues its own program (10_state.md R21). -/
def State.nextWord (s : State) (a : Agent) : Option Txn :=
  if a = .irq && s.irqService then (if s.irqPhase = .idle then some dispatchWord else none)
  else (s.progs.get a).head?

/-- The state once the next word is taken: the handler returns when its EVENT_DISPATCH finds nothing pending, which is when
that operation returns Empty (60_exceptions.md R390); otherwise the word leaves the agent's program. -/
def State.takeWord (s : State) (a : Agent) : State :=
  if a = .irq && s.irqService then (if s.pending then s else s.returnInterrupt)
  else { s with progs := s.progs.put a (s.progs.get a).tail }

/-! ## Issuing -/

/-- An operation issued and its first sub-action performed; an operation without numbered sub-actions is performed whole
(00_scope.md R10). -/
def beginOp (i : Instr) (s : State) : Host.Outcome State Fault Refusal :=
  match i with
  | .setPerm flags base len => issue s.admitSw s (s.fillStart flags base.toNat len.toNat .done)
  | .audioInit => issue s.admitSw s (s.fillStart Perm.tagWrite s.cfg.audio.base.toNat s.cfg.audio.woLen .initRo)
  | .pollEvent => issue s.admitPoll s (s.pollSample .poll)
  | .eventDispatch => issue s.admitPoll s (s.pollSample .dispatch)
  | .renderStep => issue s.admitRender s s.stepPop
  | .audioTick => issue s.admitTick s s.tickStart
  | .busWr _ _ | .busRd _ | .capPause | .capResume | .setIrqEnable _ | .shadowRd _ | .shadowWr _ _ | .renderLine _
  | .renderLineVsync | .poolRead _ _ | .setRenderer _ | .setReveal _ | .audioReset => exec i s

/-- The issue of an agent's next word, run as `run` says. An Invalid word and a word from the wrong agent are refused
(30_encoding.md R94, R95); a word that must wait stays in the agent's program (60_exceptions.md R385; log 5). -/
def State.issueNext (s : State) (a : Agent) (run : Instr → State → Host.Outcome State Fault Refusal) :
    Host.Outcome State Fault Refusal :=
  match s.nextWord a with
  | none => .next s
  | some w =>
    match decode w with
    | .invalid _ => .next ((s.takeWord a).refuse .invalid)
    | .op i =>
      if i.agent ≠ a then .next ((s.takeWord a).refuse .wrongAgent)
      else
        match s.admission i with
        | .wait => .next s
        | .go | .refuse _ => run i (s.takeWord a)

/-- The next sub-action of the agent's operation in progress; with none in progress nothing happens. BUS and VID have only
operations of one atomic action. -/
def State.advance (s : State) : Agent → State
  | .bus => s
  | .vid => s
  | .sw => s.swAdvance
  | .irq => s.irqAdvance
  | .rend => s.rendAdvance
  | .aud => s.audAdvance

/-- `n` sub-actions of the agent's operation in progress, with no other agent's action between. -/
def State.advanceN (s : State) (a : Agent) : Nat → State
  | 0 => s
  | n + 1 => (s.advance a).advanceN a n

/-- The move the schedule gives an agent. -/
def State.move (s : State) (a : Agent) : Move → Host.Outcome State Fault Refusal
  | .issue => s.issueNext a exec
  | .start => s.issueNext a beginOp
  | .advance => .next (s.advance a)
  | .read r => .next (if a = .rend then s.rendRead r else s)
  | .write p => .next (if a = .rend then s.rendWrite p else s)
  | .takeIrq => .next (if a = .irq then s.takeInterrupt else s)

/-- One step of the block: in the fatal state none is enabled (60_exceptions.md R382); otherwise the first entry of the
schedule is taken. With the schedule exhausted no agent moves (log 25). -/
def schedStep (s : State) : Host.Outcome State Fault Refusal :=
  match s.fatal with
  | some c => .fault (.halted c)
  | none =>
    match s.sched with
    | [] => .next s
    | slot :: rest => { s with sched := rest }.move slot.agent slot.move

/-! ## Loading -/

/-- The agent a word is issued by: the one its operation names; an Invalid word is put into SW's program (log 4). -/
def wordAgent (w : Txn) : Agent :=
  match decode w with
  | .op i => i.agent
  | .invalid _ => .sw

/-- Puts a word in front of an agent's program and the agent's issue in front of the schedule. For the IRQ agent the word is
fetched only outside `irq_service`. -/
def State.placeWord (s : State) (a : Agent) (w : Txn) : State :=
  { s with
    progs := s.progs.put a (w :: s.progs.get a)
    sched := ⟨a, .issue⟩ :: s.sched
    irqService := if a = .irq then false else s.irqService }

/-- Loads a run in which each operation finishes before the next starts (95_test_vectors.md part 3). -/
def State.load (s : State) : List (Agent × Txn) → State
  | [] => s
  | (a, w) :: ops => (s.load ops).placeWord a w

end Sys2Proof.Machine
end

