-- ==== Sys2Proof/Machine/Step.lean ====
section
/-! DEFINITION. The step function and the placing of a word where the next step fetches it. -/

namespace Sys2Proof.Machine

/-- One step: the move of the agent the schedule names (00_scope.md R6; log 3). -/
def step (s : State) : Host.Outcome State Fault Refusal := schedStep s

/-- The state with the word whose bits are `w` (bits at and above `nbits` zero) placed where the next step fetches it: first
in its agent's program, that agent's issue first in the schedule (log 4). -/
def State.withFetchWord (s : State) (nbits w : Nat) : State :=
  s.placeWord (wordAgent (BitVec.ofNat 64 (w % 2 ^ nbits))) (BitVec.ofNat 64 (w % 2 ^ nbits))

end Sys2Proof.Machine
end

