-- ==== Sys2Proof/Machine/Pseudo.lean ====
section
/-! DEFINITION. The pseudo-operations (30_encoding.md R103). None has an OP value; the loops are bounded by a fuel argument
that a caller chooses large enough. -/

namespace Sys2Proof.Machine

/-- `set_perm_none base, len` (30_encoding.md R103). -/
def setPermNone (base : Addr) (len : BitVec 17) : Instr := .setPerm Perm.tagNone base len

/-- `render_vsync` (30_encoding.md R103). -/
def renderVsync : Instr := .renderLineVsync

/-- `irq_service`: repeat `event_dispatch` until its result is Empty, which it is when nothing is pending
(30_encoding.md R103, 60_exceptions.md R390). -/
def irqServiceLoop : Nat → State → Host.Outcome State Fault Refusal
  | 0, s => .next s
  | n + 1, s =>
    if s.pending then
      match execEventDispatch s with
      | .next t => irqServiceLoop n t
      | .fault f => .fault f
      | .refused r => .refused r
    else execEventDispatch s

/-- `render_all`: repeat `render_step` while the request queue is non-empty (30_encoding.md R103). -/
def renderAllLoop : Nat → State → Host.Outcome State Fault Refusal
  | 0, s => .next s
  | n + 1, s =>
    if s.rqEmpty then .next s
    else
      match execRenderStep s with
      | .next t => renderAllLoop n t
      | .fault f => .fault f
      | .refused r => .refused r

/-- `n` successive `poll_event` operations. -/
def pollLoop : Nat → State → Host.Outcome State Fault Refusal
  | 0, s => .next s
  | n + 1, s =>
    match execPollEvent s with
    | .next t => pollLoop n t
    | .fault f => .fault f
    | .refused r => .refused r

/-- Operations issued one after another, each finishing before the next starts (95_test_vectors.md part 3). -/
def execAll : List Instr → State → Host.Outcome State Fault Refusal
  | [], s => .next s
  | i :: is, s =>
    match exec i s with
    | .next t => execAll is t
    | .fault f => .fault f
    | .refused r => .refused r

/-- A sequence of bus writes, as the capture pipeline sees it. -/
def State.captures (s : State) : List (Addr × Byte) → State
  | [] => s
  | (a, v) :: ws => (s.capture a v).captures ws

/-- A sequence of bus writes, each one BUS_WR. -/
def busWrites : List (Addr × Byte) → State → Host.Outcome State Fault Refusal
  | [], s => .next s
  | (a, v) :: ws, s =>
    match execBusWr a v s with
    | .next t => busWrites ws t
    | .fault f => .fault f
    | .refused r => .refused r

end Sys2Proof.Machine
end

