-- ==== Sys2Proof/Safety.lean ====
section
/-! DEFINITION. What counts as a clean state, an ended run and its observation (70_reset_and_hazards.md R422, R423), and the
invariant of the state. -/

namespace Sys2Proof.Machine

/-! ## Queues as lists -/

/-- The tokens in the request queue, oldest first (10_state.md R28). -/
def State.rqTokens (s : State) : List Token :=
  (List.range s.rqCount.toNat).map fun i => s.rqSlotAt (s.rqTail + BitVec.ofNat 32 i)

/-- The entries in the audio FIFO, oldest first (10_state.md R37). -/
def State.afEntries (s : State) : List Entry :=
  (List.range s.afCount.toNat).map fun i => s.afSlotAt (s.afTail + BitVec.ofNat 32 i)

/-- The unread records still held in the ring, oldest first: the min(gap, C) most recent (41_eventstream.md R162). -/
def State.unread (s : State) : List Addr :=
  (List.range (min s.gap.toNat s.cfg.evsCap)).map fun i =>
    s.evSlot (s.W - BitVec.ofNat 32 (min s.gap.toNat s.cfg.evsCap) + BitVec.ofNat 32 i)

/-! ## Clean states and ended runs -/

/-- No operation is between sub-actions (70_reset_and_hazards.md R422). -/
def State.quiet (s : State) : Bool :=
  s.irqPhase == .idle && s.rendPhase == .idle && s.swPhase == .idle && s.audPhase == .idle

/-- The launch premise (70_reset_and_hazards.md R423): no fault recorded, no refusal recorded, nothing in flight. -/
def State.clean (s : State) : Bool := s.fatal == none && !s.refused && s.quiet

/-- Every agent's list is exhausted. -/
def Programs.exhausted (p : Programs) : Bool :=
  p.bus.isEmpty && p.sw.isEmpty && p.irq.isEmpty && p.rend.isEmpty && p.vid.isEmpty && p.aud.isEmpty

/-- The run has ended (70_reset_and_hazards.md R422). Whether `irq_service` has returned is not among R422's conditions and is not
asked: the EVENT_DISPATCH words the handler issues are in no agent's list (DESIGN CHOICE, log 19). -/
def State.ended (s : State) : Bool := s.progs.exhausted && s.clean

/-- The results returned to one agent, in order (70_reset_and_hazards.md R422). -/
def State.resultsOf (s : State) (a : Agent) : List Result :=
  ((s.results.filter fun r => r.1 == a).map Prod.snd).reverse

/-- What an ended run shows (70_reset_and_hazards.md R422). `dacLevels` holds the level after each tick, in order. -/
structure Observation where
  bus      : List Result
  sw       : List Result
  irq      : List Result
  vid      : List Result
  shadow   : Memory
  perm     : List (Nat × Perm)
  W        : Word32
  R        : Word32
  rq       : List Token
  af       : List Entry
  pool     : List (Nat × Pixel)
  fc       : Word32
  dacLevels : List Word32
  regs     : List Byte
  status   : List Byte
  deriving DecidableEq, Repr

/-- The observation of an ended run; a run in the fatal state or with a refusal recorded observes nothing
(70_reset_and_hazards.md R422). -/
def State.observation (s : State) : Option Observation :=
  if s.ended then
    some {
      bus := s.resultsOf .bus
      sw := s.resultsOf .sw
      irq := s.resultsOf .irq
      vid := s.resultsOf .vid
      shadow := s.shadow
      perm := s.perm
      W := s.W
      R := s.R
      rq := s.rqTokens
      af := s.afEntries
      pool := s.pool
      fc := s.fc
      dacLevels := s.dacLog.reverse
      regs := (List.range s.cfg.audio.woLen).map (synthReg s.synth)
      status := (List.range s.cfg.audio.roLen).map (Config.synthStatus s.synth) }
  else none

/-! ## The invariant -/

/-- Every storage is in its canonical form. -/
def State.canonical (s : State) : Bool :=
  s.shadow.wf && Sparse.wf Perm.tagNone 65536 s.perm && Sparse.wfFrom 0#16 0 s.evbuf &&
    Sparse.wfFrom Token.vsync 0 s.rqSlot && Sparse.wfFrom 0#8 0 s.pool && Sparse.wfFrom ⟨0#8, 0#9⟩ 0 s.afSlot

/-- `writing_slot` is `Some(s)` exactly while a step writes slot s (10_state.md R30). -/
def State.writingSlotOk (s : State) : Bool :=
  match s.rendPhase with
  | .idle => s.writingSlot == none
  | .rendering _ slot _ _ => s.writingSlot == some slot

/-- A run of tag writes has a cell left to write and stays inside the window (40_shadowbus.md R137, R138). -/
def State.fillOk (s : State) : Bool :=
  match s.swPhase with
  | .filling _ a left _ => decide (0 < left) && decide (a + left ≤ 65536)
  | .idle | .initRo | .initSynth | .initArm => true

/-- A tick that drains has an entry left to apply and never more than the FIFO holds (45_audio.md R351; a FIFO of 2^32 slots or
more, whose 32-bit count can wrap, is left out of this), and writes only status bytes of the range. -/
def State.tickOk (s : State) : Bool :=
  match s.audPhase with
  | .draining left => decide (0 < left) && (decide (left ≤ s.afCount.toNat) || decide (2 ^ 32 ≤ s.cfg.afifoCap))
  | .status i => decide (i < s.cfg.audio.roLen)
  | .idle | .clocking => true

/-- The queues hold no more than their capacities (42_scanline_pipeline.md R193, 45_audio.md R347). -/
def State.queuesOk (s : State) : Bool :=
  decide (s.rqCount.toNat ≤ s.cfg.rqCap) && decide (s.afCount.toNat ≤ s.cfg.afifoCap)

/-- The configuration in force passed the check (70_reset_and_hazards.md R411), or the block is in the fatal state. -/
def State.configOk (s : State) : Bool := s.cfg.wf || s.fatal.isSome

/-- A request token of the queue carries a line index of the frame (30_encoding.md R99). -/
def Token.inFrame (c : Cfg) : Token → Bool
  | .line l => decide (l.toNat < c.frameLines)
  | .vsync => true

/-- Every token in the queue carries a line index of the frame. -/
def State.tokensOk (s : State) : Bool := s.rqTokens.all (Token.inFrame s.cfg)

/-- A step in progress has a target line of the frame and writes that line's slot (42_scanline_pipeline.md R196, R197). -/
def State.renderOk (s : State) : Bool :=
  match s.rendPhase with
  | .idle => true
  | .rendering x slot _ _ => decide (x.target < s.cfg.frameLines) && slot == x.target % s.cfg.nPool

/-- The committed line count is below the divisor of the mode it counts in (43_scanline_decode.md R236), so a text line's
sub-scanline is one of 0..11 (R242). -/
def State.rowOk (s : State) : Bool :=
  match s.lastMode with
  | none => s.lineCount == 0#8
  | some m => decide (s.lineCount.toNat < max 1 (vdgVariant s.cfg.vdg m).div)

/-- The invariant of the state: it holds after reset and every step keeps it. -/
def State.inv (s : State) : Bool :=
  s.canonical && s.writingSlotOk && s.fillOk && s.tickOk && s.queuesOk && s.configOk && s.tokensOk && s.renderOk && s.rowOk

end Sys2Proof.Machine
end

