-- ==== Sys2Proof/Certificates/Slice0/Obligations.lean ====
section
/-! DEFINITION. The statements for the provers, in the order of OBLIGATIONS.json: the encoding, the step, the bus side, SW's
operations, the EventStream, the dispatch, the pipeline, the line functions, the audio consumer, and the whole machine.
Each docstring names the rules a statement formalises. Frames are equations `t = { s with ... }`: every field not named there
is as before. -/

open Sys2Proof Sys2Proof.Machine

/-! ## Encoding -/

/-- Decoding an operation's word gives the operation back, with every operand (30_encoding.md R90-R93). -/
def Obligations.DecodeEncodeRoundTrip : Prop :=
  ∀ i : Instr, i.wellFormed = true → decode (encode i) = .op i

/-- A word that decodes to an operation is that operation's own word, and the operation is well-formed: each operation has one
word (30_encoding.md R90-R93). -/
def Obligations.DecodedWordIsTheEncodedWord : Prop :=
  ∀ (w : Txn) (i : Instr), decode w = .op i → i.wellFormed = true ∧ encode i = w

/-- The decoder reads the rows of spec/opcode_table.json: a word decodes to an operation exactly when it matches a row, the
operation's own, except the SET_RENDERER words with `sel = 3` (30_encoding.md R92, R93). -/
def Obligations.DecoderAgreesWithOpcodeTable : Prop :=
  (∀ (w : Txn) (i : Instr), decode w = .op i → ∃ r, opcodeTable[i.tableIndex]? = some r ∧ r.covers w = true) ∧
  (∀ (w : Txn) (r : TableRow), r ∈ opcodeTable → r.covers w = true →
    (r.mnemonic = "SET_RENDERER" ∧ selOperand w = 3#2 ∧ decode w = .invalid .reservedSelector) ∨
    ∃ i, decode w = .op i ∧ opcodeTable[i.tableIndex]? = some r)

/-- A few of the words of 95_test_vectors.md section 2.1 and what they decode to. -/
def Obligations.WorkedWordsDecode : Prop :=
  decode 0x0100004100008000 = .op (.busWr 0x8000 0x41) ∧
  decode 0x1005BDC000000019 = .op (.setPerm 0b101 0xBDC0 25) ∧
  decode 0x2100000000000000 = .op .eventDispatch ∧
  decode 0x30000000FFFFFFFF = .op (.renderLine 0xFFFFFFFF) ∧
  decode 0x3200000300000005 = .op (.poolRead 3 5) ∧
  decode 0x3302000000000000 = .op (.setRenderer 2) ∧
  decode 0x4200000000000000 = .op .audioReset ∧
  decode 0x0100010000008000 = .invalid .mustBeZero

/-- The words that spell no operation (30_encoding.md R93, R94): a reserved OP value; an assigned OP value with a must-be-zero
bit set, that is a word whose OP is a row's and whose bits under the mask of every row of that OP are not the row's pattern; a
SET_RENDERER word with `sel = 3`. Each of them, issued by any agent, is refused: `refused` is set and no
other state changes; that the word is consumed is the model's choice (log 6). -/
def Obligations.WordsThatSpellNoOperationAreRefused : Prop :=
  (∀ w : Txn, (opField w).toNat ∉ [0x01, 0x02, 0x03, 0x04, 0x05, 0x10, 0x11, 0x12, 0x20, 0x21, 0x30, 0x31, 0x32, 0x33, 0x34,
      0x40, 0x41, 0x42] → decode w = .invalid .reservedOp) ∧
  (∀ w : Txn, (∃ r ∈ opcodeTable, opField r.pattern = opField w) →
    (∀ r ∈ opcodeTable, opField r.pattern = opField w → r.covers w = false) → decode w = .invalid .mustBeZero) ∧
  decode 0x3303000000000000 = .invalid .reservedSelector ∧
  (∀ (s : State) (a : Agent) (m : Move) (rest : List Slot) (w : Txn) (ws : List Txn) (why : Invalid),
    s.fatal = none → s.sched = ⟨a, m⟩ :: rest → (m = .issue ∨ m = .start) → (a = .irq → s.irqService = false) →
    s.progs.get a = w :: ws → decode w = .invalid why →
    step s = .next { s with sched := rest, progs := s.progs.put a ws, refused := true })

/-! ## The step -/

/-- A step runs the decoded instruction. With an agent's issue first in the schedule and the word `w` of operation `i` first in
that agent's program, the step is `exec i` at the state with the schedule entry and the word consumed; a `start` performs the
operation's first sub-action instead (00_scope.md R6, R10). The schedule is the model's form (log 3), and these are its choices:
a word whose admission is a refusal is consumed as well (log 6); inside `irq_service` the IRQ agent issues EVENT_DISPATCH without
a program word, and the mark that the handler runs goes when nothing is pending (log 19; 30_encoding.md R103, 60_exceptions.md R390);
an operation that must wait (60_exceptions.md R385) leaves the word where it is (log 5); an empty schedule changes nothing
(log 25). -/
def Obligations.StepRunsDecodedInstruction : Prop :=
  (∀ (s : State) (a : Agent) (m : Move) (rest : List Slot) (w : Txn) (ws : List Txn) (i : Instr),
    s.fatal = none → s.sched = ⟨a, m⟩ :: rest → (a = .irq → s.irqService = false) →
    s.progs.get a = w :: ws → decode w = .op i → i.agent = a →
    (s.admission i ≠ .wait →
      (m = .issue → step s = exec i { s with sched := rest, progs := s.progs.put a ws }) ∧
      (m = .start → step s = beginOp i { s with sched := rest, progs := s.progs.put a ws })) ∧
    (s.admission i = .wait → m = .issue ∨ m = .start → step s = .next { s with sched := rest })) ∧
  (∀ (s : State) (m : Move) (rest : List Slot),
    s.fatal = none → s.sched = ⟨.irq, m⟩ :: rest → s.irqService = true → s.irqPhase = .idle → s.irqEnabled = true →
    (m = .issue → step s = exec .eventDispatch { s with sched := rest, irqService := s.pending }) ∧
    (m = .start → step s = beginOp .eventDispatch { s with sched := rest, irqService := s.pending })) ∧
  (∀ (s : State) (a : Agent) (rest : List Slot), s.fatal = none → s.sched = ⟨a, .advance⟩ :: rest →
    step s = .next ({ s with sched := rest }.advance a)) ∧
  (∀ s : State, s.fatal = none → s.sched = [] → step s = .next s)

/-- The word placed by `withFetchWord` is the one the next step fetches and runs (log 4). -/
def Obligations.PlacedWordRunsNext : Prop :=
  ∀ (s : State) (nbits w : Nat) (i : Instr), s.fatal = none →
    decode (BitVec.ofNat 64 (w % 2 ^ nbits)) = .op i → s.admission i ≠ .wait →
    step (s.withFetchWord nbits w) = exec i { s with irqService := if i.agent = .irq then false else s.irqService }

/-- An operation is admitted only from the agent 30_encoding.md R92 names for it (R95): a word issued by any other agent is
refused, and nothing but the consumed word (the model's choice, log 6) and the refusal mark changes. -/
def Obligations.WordFromWrongAgentIsRefused : Prop :=
  (∀ (s : State) (a : Agent) (m : Move) (rest : List Slot) (w : Txn) (ws : List Txn) (i : Instr),
    s.fatal = none → s.sched = ⟨a, m⟩ :: rest → (m = .issue ∨ m = .start) → (a = .irq → s.irqService = false) →
    s.progs.get a = w :: ws → decode w = .op i → i.agent ≠ a →
    step s = .next { s with sched := rest, progs := s.progs.put a ws, refused := true }) ∧
  (∀ addr data, (Instr.busWr addr data).agent = .bus) ∧ (∀ addr, (Instr.busRd addr).agent = .bus) ∧
  Instr.capPause.agent = .sw ∧ Instr.capResume.agent = .sw ∧ (∀ v, (Instr.setIrqEnable v).agent = .sw) ∧
  (∀ f b l, (Instr.setPerm f b l).agent = .sw) ∧ (∀ a, (Instr.shadowRd a).agent = .sw) ∧
  (∀ a v, (Instr.shadowWr a v).agent = .sw) ∧ Instr.pollEvent.agent = .irq ∧ Instr.eventDispatch.agent = .irq ∧
  (∀ l, (Instr.renderLine l).agent = .vid) ∧ Instr.renderLineVsync.agent = .vid ∧ Instr.renderStep.agent = .rend ∧
  (∀ k x, (Instr.poolRead k x).agent = .vid) ∧ (∀ r, (Instr.setRenderer r).agent = .sw) ∧
  (∀ v, (Instr.setReveal v).agent = .sw) ∧ Instr.audioInit.agent = .sw ∧ Instr.audioTick.agent = .aud ∧
  Instr.audioReset.agent = .irq

/-- The refusals of 60_exceptions.md R384 that an operation's own state or operands bring: POOL_READ outside the pool, a poll
while one is between its sub-actions, a second RENDER_STEP, a second AUDIO_TICK; and SET_RENDERER with `sel = 3` executed though no word
spells it (the model's choice, log 24). Each sets `refused` and changes nothing else. In a state where a wait of R385 or R386
applies as well (a step in progress with an empty queue, a poll in progress with the interrupt disabled, a tick in progress with
the timer not armed), that the refusal is taken is the model's choice (log 10). -/
def Obligations.OutOfTurnIssuesAreRefused : Prop :=
  (∀ (s : State) (k : Byte) (x : BitVec 16), s.fatal = none → s.cfg.nPool ≤ k.toNat ∨ s.cfg.linePixels ≤ x.toNat →
    exec (.poolRead k x) s = .next { s with refused := true }) ∧
  (∀ (s : State) (w : Word32) (op : PollFor), s.fatal = none → s.irqPhase = .polling w op →
    exec .pollEvent s = .next { s with refused := true } ∧ exec .eventDispatch s = .next { s with refused := true }) ∧
  (∀ s : State, s.fatal = none → s.rendPhase ≠ .idle → exec .renderStep s = .next { s with refused := true }) ∧
  (∀ s : State, s.fatal = none → s.audPhase ≠ .idle → exec .audioTick s = .next { s with refused := true }) ∧
  (∀ s : State, s.fatal = none → exec (.setRenderer 3#2) s = .next { s with refused := true })

/-- Waits, not refusals (60_exceptions.md R385): RENDER_STEP on an empty queue, AUDIO_TICK while the timer is not armed, the IRQ
operations while the interrupt is disabled change nothing (a wait as an unchanged state is the model's form, log 5). -/
def Obligations.UnmetPreconditionsWait : Prop :=
  (∀ s : State, s.fatal = none → s.rendPhase = .idle → s.rqHead = s.rqTail → exec .renderStep s = .next s) ∧
  (∀ s : State, s.fatal = none → s.audPhase = .idle → s.audioArmed = false → exec .audioTick s = .next s) ∧
  (∀ s : State, s.fatal = none → s.irqPhase = .idle → s.irqEnabled = false →
    exec .pollEvent s = .next s ∧ exec .eventDispatch s = .next s ∧ exec .audioReset s = .next s)

/-- The fatal state (60_exceptions.md R382): no operation and no step of any agent is enabled, which this model says by a
fault (log 7), and the run observes nothing. -/
def Obligations.FatalStateIsQuiescent : Prop :=
  ∀ (s : State) (c : FatalCode), s.fatal = some c →
    step s = .fault (.halted c) ∧ (∀ i, exec i s = .fault (.halted c)) ∧ s.observation = none

/-- Every other condition is total (60_exceptions.md R381, R383): outside the fatal state every operation and every step
answers a next state, and the only fatal code one raises is PERM_RANGE with operands whose range passes the end of the window.
Where an operation waits or the schedule is empty the spec has no enabled step; that the answer is then the state itself is the
model's form (log 5, log 25), and so is a fatal code as a next state that records it (log 7). -/
def Obligations.OnlyPermRangeIsFatal : Prop :=
  ∀ s : State, s.fatal = none →
    (∃ t, step s = .next t ∧ (t.fatal = none ∨ ∃ base len, t.fatal = some (.permRange base len) ∧ 65536 < base + len)) ∧
    (∀ i, ∃ t, exec i s = .next t ∧
      (t.fatal = none ∨ ((i = .audioInit ∨ ∃ f b l, i = .setPerm f b l) ∧
        ∃ base len, t.fatal = some (.permRange base len) ∧ 65536 < base + len)))

/-! ## The bus side -/

/-- BUS_WR (40_shadowbus.md R130-R132): while paused nothing changes; otherwise the byte is accepted iff the WRITE flag (bit 1) is set,
and one record is enqueued iff the write qualifies. -/
def Obligations.BusWriteEffect : Prop :=
  ∀ (s : State) (addr : Addr) (data : Byte), s.fatal = none →
    ∃ t, exec (.busWr addr data) s = .next t ∧
      t = { s with shadow := t.shadow, evbuf := t.evbuf, W := t.W } ∧
      (s.paused = true → t = s) ∧
      (s.paused = false →
        (∀ a, t.readByte a = if a = addr ∧ (s.permAt addr).getLsbD 1 = true then data else s.readByte a) ∧
        ((s.permAt addr).getLsbD 1 = true ∨ ((s.permAt addr).getLsbD 2 = true ∧ s.cfg.snoopEvent = true) →
          t.W = s.W + 1#32 ∧
          ∀ n, t.evSlot n = if slotOf n s.cfg.evsCap = slotOf s.W s.cfg.evsCap then addr else s.evSlot n) ∧
        ((s.permAt addr).getLsbD 1 = false → (s.permAt addr).getLsbD 2 = false ∨ s.cfg.snoopEvent = false →
          t.W = s.W ∧ t.evbuf = s.evbuf))

/-- BUS_RD (40_shadowbus.md R133): the byte is driven iff not paused and the READ flag (bit 0) is set; no state changes but the
list of results (log 9). -/
def Obligations.BusReadDrivesReadableCells : Prop :=
  ∀ (s : State) (addr : Addr), s.fatal = none →
    exec (.busRd addr) s = .next { s with results :=
      (.bus, if s.paused = false ∧ (s.permAt addr).getLsbD 0 = true then .driven (s.readByte addr) else .notDriven) ::
        s.results }

/-- The table of 40_shadowbus.md R142, tag by tag: whether a bus write is accepted, whether it enqueues a record, whether a bus read
is driven, with the capture pipeline running. The list of results is the model's (log 9). -/
def Obligations.TagTable : Prop :=
  ∀ (s : State) (addr : Addr) (data : Byte), s.fatal = none → s.paused = false →
    (∃ t, exec (.busWr addr data) s = .next t ∧
      t.readByte addr =
        (if s.permAt addr ∈ [0b010#3, 0b011#3, 0b110#3, 0b111#3] then data else s.readByte addr) ∧
      t.W = (if s.permAt addr ∈ [0b010#3, 0b011#3, 0b110#3, 0b111#3] ∨
          (s.permAt addr ∈ [0b100#3, 0b101#3] ∧ s.cfg.snoopEvent = true) then s.W + 1#32 else s.W)) ∧
    exec (.busRd addr) s = .next { s with results :=
      (.bus, if s.permAt addr ∈ [0b001#3, 0b011#3, 0b101#3, 0b111#3] then .driven (s.readByte addr) else .notDriven) ::
        s.results }

/-! ## SW's operations -/

/-- The control registers SW writes: CAP_PAUSE and CAP_RESUME (40_shadowbus.md R135, R136), SET_IRQ_ENABLE (60_exceptions.md R387),
SET_RENDERER (42_scanline_pipeline.md R205) and SET_REVEAL (44_teletext.md R306) each write their register and change nothing else. -/
def Obligations.ControlRegisterWrites : Prop :=
  ∀ s : State, s.fatal = none → s.swPhase = .idle →
    exec .capPause s = .next { s with paused := true } ∧ exec .capResume s = .next { s with paused := false } ∧
    (∀ v, exec (.setIrqEnable v) s = .next { s with irqEnabled := v }) ∧
    exec (.setRenderer 0#2) s = .next { s with rendererCfg := .vdg } ∧
    exec (.setRenderer 1#2) s = .next { s with rendererCfg := .teletext } ∧
    exec (.setRenderer 2#2) s = .next { s with rendererCfg := .attr80 } ∧
    (∀ v, exec (.setReveal v) s = .next { s with reveal := v })

/-- SET_PERM (40_shadowbus.md R137, R138) by its sub-actions. Sub-action (1) raises PERM_RANGE, and does nothing else, exactly when the
range passes the end of the window. Otherwise, after k of the cell sub-actions the first k cells have the new tag, every other
cell has its old one, the operation is over exactly at k = len, and nothing else has changed. -/
def Obligations.SetPermCellByCell : Prop :=
  ∀ (s : State) (flags : Perm) (base : Addr) (len : BitVec 17), s.fatal = none → s.swPhase = .idle →
    (65536 < base.toNat + len.toNat →
      beginOp (.setPerm flags base len) s = .next { s with fatal := some (.permRange base.toNat len.toNat) }) ∧
    (base.toNat + len.toNat ≤ 65536 →
      ∃ t0, beginOp (.setPerm flags base len) s = .next t0 ∧
        ∀ k, k ≤ len.toNat →
          (∀ a : Addr, (t0.advanceN .sw k).permAt a =
            if base.toNat ≤ a.toNat ∧ a.toNat < base.toNat + k then flags else s.permAt a) ∧
          ((t0.advanceN .sw k).swPhase = .idle ↔ k = len.toNat) ∧
          t0.advanceN .sw k =
            { s with perm := (t0.advanceN .sw k).perm, swPhase := (t0.advanceN .sw k).swPhase })

/-- SET_PERM uninterrupted (40_shadowbus.md R137, R138): in range it completes with every cell of `[base, base + len)` tagged and
no other; out of range it records PERM_RANGE with its operands before any tag is written (60_exceptions.md R381, R389). In a state whose tags are in canonical form its sub-actions, run to the
end, reach exactly the same state (log 3). -/
def Obligations.SetPermEffect : Prop :=
  ∀ (s : State) (flags : Perm) (base : Addr) (len : BitVec 17), s.fatal = none → s.swPhase = .idle →
    (base.toNat + len.toNat ≤ 65536 →
      ∃ t, exec (.setPerm flags base len) s = .next t ∧ t = { s with perm := t.perm } ∧
        ∀ a : Addr, t.permAt a =
          if base.toNat ≤ a.toNat ∧ a.toNat < base.toNat + len.toNat then flags else s.permAt a) ∧
    (base.toNat + len.toNat ≤ 65536 → s.canonical = true →
      ∃ t0, beginOp (.setPerm flags base len) s = .next t0 ∧
        exec (.setPerm flags base len) s = .next (t0.advanceN .sw len.toNat)) ∧
    (65536 < base.toNat + len.toNat →
      exec (.setPerm flags base len) s = .next { s with fatal := some (.permRange base.toNat len.toNat) })

/-- SHADOW_RD and SHADOW_WR (40_shadowbus.md R140, R141): the cell's byte is answered or written whatever its tag. A read changes
nothing but the list of results (log 9); a write changes no other cell and no other state (no record is enqueued). -/
def Obligations.ShadowAccessors : Prop :=
  ∀ (s : State) (addr : Addr) (data : Byte), s.fatal = none → s.swPhase = .idle →
    exec (.shadowRd addr) s = .next { s with results := (.sw, .byte (s.readByte addr)) :: s.results } ∧
    ∃ t, exec (.shadowWr addr data) s = .next t ∧ t = { s with shadow := t.shadow } ∧
      ∀ a, t.readByte a = if a = addr then data else s.readByte a

/-- AUDIO_INIT (45_audio.md R341): the two ranges tagged, the synthesizer reset, the timer armed, and nothing else changed; where a
range passes the end of the window, PERM_RANGE from (a) with nothing else changed, or from (b) with the first range's tags
written. In a state whose tags are in canonical form its sub-actions reach the same state (log 3). -/
def Obligations.AudioInitEffect : Prop :=
  ∀ s : State, s.fatal = none → s.swPhase = .idle →
    (s.cfg.audio.base.toNat + s.cfg.audio.woLen + s.cfg.audio.roLen ≤ 65536 →
      ∃ t, exec .audioInit s = .next t ∧
        t = { s with perm := t.perm, synth := Config.synthReset, audioArmed := true } ∧
        (∀ a : Addr, t.permAt a =
          if s.cfg.audio.base.toNat ≤ a.toNat ∧ a.toNat < s.cfg.audio.base.toNat + s.cfg.audio.woLen then 0b010#3
          else if s.cfg.audio.base.toNat + s.cfg.audio.woLen ≤ a.toNat ∧
              a.toNat < s.cfg.audio.base.toNat + s.cfg.audio.woLen + s.cfg.audio.roLen then 0b001#3
          else s.permAt a) ∧
        (s.canonical = true → ∃ t0, beginOp .audioInit s = .next t0 ∧
          t0.advanceN .sw (s.cfg.audio.woLen + s.cfg.audio.roLen + 3) = t)) ∧
    (65536 < s.cfg.audio.base.toNat + s.cfg.audio.woLen →
      exec .audioInit s = .next { s with fatal := some (.permRange s.cfg.audio.base.toNat s.cfg.audio.woLen) }) ∧
    (s.cfg.audio.base.toNat + s.cfg.audio.woLen ≤ 65536 →
      65536 < s.cfg.audio.base.toNat + s.cfg.audio.woLen + s.cfg.audio.roLen →
      ∃ t, exec .audioInit s = .next t ∧
        t = { s with
          perm := t.perm,
          fatal := some (.permRange (s.cfg.audio.base.toNat + s.cfg.audio.woLen) s.cfg.audio.roLen) } ∧
        ∀ a : Addr, t.permAt a =
          if s.cfg.audio.base.toNat ≤ a.toNat ∧ a.toNat < s.cfg.audio.base.toNat + s.cfg.audio.woLen then 0b010#3
          else s.permAt a)

/-! ## The EventStream -/

/-- POLL_EVENT (41_eventstream.md R163-R165), uninterrupted and by its two sub-actions. `r` is the read cursor after the overflow
resynchronisation. The list of results is the model's (log 9). -/
def Obligations.PollEventEffect : Prop :=
  (∀ s : State, s.fatal = none → s.irqPhase = .idle → s.irqEnabled = true → s.R = s.W →
    exec .pollEvent s = .next { s with results := (.irq, .polled none) :: s.results } ∧
    beginOp .pollEvent s = .next { s with results := (.irq, .polled none) :: s.results }) ∧
  (∀ (s : State) (r : Word32), s.fatal = none → s.irqPhase = .idle → s.irqEnabled = true → s.R ≠ s.W →
    r = (if s.cfg.evsCap < (s.W - s.R).toNat then s.W - BitVec.ofNat 32 s.cfg.evsCap else s.R) →
    exec .pollEvent s =
      .next { s with R := r + 1#32, results := (.irq, .polled (some (s.evSlot r))) :: s.results } ∧
    beginOp .pollEvent s = .next { s with R := r, irqPhase := .polling s.W .poll }) ∧
  (∀ (s : State) (w : Word32), s.irqPhase = .polling w .poll →
    s.advance .irq = { s with
      R := s.R + 1#32, irqPhase := .idle, results := (.irq, .polled (some (s.evSlot s.R))) :: s.results })

/-- The slot race (41_eventstream.md R166). Between the sub-actions of a poll that sampled W = w and moved R to r, `ws`
qualifying writes happen. With `d = r + C - w`, the poll answers record r as long as at most d writes happened; after that, the
location of the newest write that used slot `r mod C`, which is the write numbered i with `i mod C = d` among the last C. The
answer is read from the list of results, newest first, which is the model's (log 9). -/
def Obligations.PollSlotRace : Prop :=
  ∀ (s t0 : State) (ws : List (Addr × Byte)), s.fatal = none → s.cfg.wf = true → s.paused = false → s.irqPhase = .idle →
    s.irqEnabled = true → s.R ≠ s.W → beginOp .pollEvent s = .next t0 →
    (∀ p ∈ ws, Perm.qualifies s.cfg.snoopEvent (s.permAt p.1) = true) →
    ∃ (d : Nat) (loc : Addr),
      d = (t0.R + BitVec.ofNat 32 s.cfg.evsCap - s.W).toNat ∧ d < s.cfg.evsCap ∧
      ((t0.captures ws).advance .irq).results = (.irq, .polled (some loc)) :: s.results ∧
      (ws.length ≤ d → loc = s.evSlot t0.R) ∧
      (∀ (i : Nat) (h : i < ws.length), i % s.cfg.evsCap = d → ws.length ≤ i + s.cfg.evsCap → loc = (ws[i]'h).1) ∧
      (d < ws.length → ∃ i, i < ws.length ∧ i % s.cfg.evsCap = d ∧ ws.length ≤ i + s.cfg.evsCap)

/-- Retrieval count (41_eventstream.md R169): from a state with R = W, after K qualifying writes (K below 2^32) and no poll, the
first min(K, C) polls return the locations of the min(K, C) most recent writes, oldest first, and the next poll returns None.
The list of results is the model's (log 9). -/
def Obligations.RetrievalCount : Prop :=
  ∀ (s : State) (ws : List (Addr × Byte)), s.fatal = none → s.cfg.wf = true → s.paused = false → s.irqPhase = .idle →
    s.irqEnabled = true → s.R = s.W → ws.length < 2 ^ 32 →
    (∀ p ∈ ws, Perm.qualifies s.cfg.snoopEvent (s.permAt p.1) = true) →
    ∃ t u, busWrites ws s = .next t ∧ pollLoop (min ws.length s.cfg.evsCap + 1) t = .next u ∧ u.R = u.W ∧
      u.results = (.irq, .polled none) ::
        (((ws.drop (ws.length - min ws.length s.cfg.evsCap)).map fun p => (Agent.irq, Result.polled (some p.1))).reverse ++
          s.results)

/-! ## The dispatch -/

/-- EVENT_DISPATCH (45_audio.md R345-R347; 44_teletext.md R304, R305), uninterrupted. On an empty ring it returns Empty. Otherwise,
with `r` the resynchronised cursor, `loc` the record and `v` the byte its cell holds now: an address of the write-only audio range pushes
`(loc - AUDIO_BASE, v)`, dropped when the FIFO is full; the CRTC ports latch the index or write the indexed half of a
register; any other address does nothing. The list of results is the model's (log 9), and so is an entry's offset where
AUDIO_WO_LEN is above 256, which is left open here (log 15). Where two of the four register indices are equal, that the first row
of R305's table acts is the model's choice (log 20). -/
def Obligations.DispatchHandlesRecord : Prop :=
  (∀ s : State, s.fatal = none → s.irqPhase = .idle → s.irqEnabled = true → s.R = s.W →
    exec .eventDispatch s = .next { s with results := (.irq, .empty) :: s.results }) ∧
  (∀ (s : State) (r : Word32) (loc : Addr) (v : Byte) (inAudio : Prop),
    s.fatal = none → s.irqPhase = .idle → s.irqEnabled = true → s.R ≠ s.W →
    r = (if s.cfg.evsCap < (s.W - s.R).toNat then s.W - BitVec.ofNat 32 s.cfg.evsCap else s.R) →
    loc = s.evSlot r → v = s.readByte loc →
    (inAudio ↔ s.cfg.audio.base.toNat ≤ loc.toNat ∧ loc.toNat < s.cfg.audio.base.toNat + s.cfg.audio.woLen) →
    ∃ t cls, exec .eventDispatch s = .next t ∧
      t = { s with
        R := r + 1#32, results := (.irq, .handled loc cls) :: s.results, afSlot := t.afSlot, afHead := t.afHead,
        ttCrtcIdx := t.ttCrtcIdx, ttStart := t.ttStart, ttCursor := t.ttCursor } ∧
      (inAudio → cls = .audio ∧ t.ttCrtcIdx = s.ttCrtcIdx ∧ t.ttStart = s.ttStart ∧ t.ttCursor = s.ttCursor ∧
        ((s.afHead - s.afTail).toNat = s.cfg.afifoCap → t.afHead = s.afHead ∧ t.afSlot = s.afSlot) ∧
        ((s.afHead - s.afTail).toNat ≠ s.cfg.afifoCap → t.afHead = s.afHead + 1#32 ∧
          ∃ off : Byte, (s.cfg.audio.woLen ≤ 256 → off.toNat = loc.toNat - s.cfg.audio.base.toNat) ∧
            ∀ n, t.afSlotAt n =
              if slotOf n s.cfg.afifoCap = slotOf s.afHead s.cfg.afifoCap then ⟨off, v.setWidth 9⟩ else s.afSlotAt n)) ∧
      (¬inAudio → t.afHead = s.afHead ∧ t.afSlot = s.afSlot) ∧
      (¬inAudio → loc = s.cfg.tt.crtcAddr →
        cls = .crtcIndex ∧ t.ttCrtcIdx = v ∧ t.ttStart = s.ttStart ∧ t.ttCursor = s.ttCursor) ∧
      (¬inAudio → loc ≠ s.cfg.tt.crtcAddr → loc = s.cfg.tt.crtcData →
        cls = .crtcData ∧ t.ttCrtcIdx = s.ttCrtcIdx ∧
        (s.ttCrtcIdx = s.cfg.tt.crtcStartHi → t.ttStart = v ++ s.ttStart.extractLsb' 0 8 ∧ t.ttCursor = s.ttCursor) ∧
        (s.ttCrtcIdx ≠ s.cfg.tt.crtcStartHi → s.ttCrtcIdx = s.cfg.tt.crtcStartLo →
          t.ttStart = s.ttStart.extractLsb' 8 8 ++ v ∧ t.ttCursor = s.ttCursor) ∧
        (s.ttCrtcIdx ≠ s.cfg.tt.crtcStartHi → s.ttCrtcIdx ≠ s.cfg.tt.crtcStartLo →
          s.ttCrtcIdx = s.cfg.tt.crtcCursorHi →
          t.ttStart = s.ttStart ∧ t.ttCursor = v ++ s.ttCursor.extractLsb' 0 8) ∧
        (s.ttCrtcIdx ≠ s.cfg.tt.crtcStartHi → s.ttCrtcIdx ≠ s.cfg.tt.crtcStartLo →
          s.ttCrtcIdx ≠ s.cfg.tt.crtcCursorHi → s.ttCrtcIdx = s.cfg.tt.crtcCursorLo →
          t.ttStart = s.ttStart ∧ t.ttCursor = s.ttCursor.extractLsb' 8 8 ++ v) ∧
        (s.ttCrtcIdx ∉ [s.cfg.tt.crtcStartHi, s.cfg.tt.crtcStartLo, s.cfg.tt.crtcCursorHi, s.cfg.tt.crtcCursorLo] →
          t.ttStart = s.ttStart ∧ t.ttCursor = s.ttCursor)) ∧
      (¬inAudio → loc ≠ s.cfg.tt.crtcAddr → loc ≠ s.cfg.tt.crtcData →
        cls = .ignored ∧ t.ttCrtcIdx = s.ttCrtcIdx ∧ t.ttStart = s.ttStart ∧ t.ttCursor = s.ttCursor))

/-- EVENT_DISPATCH by its three sub-actions (45_audio.md R345), and the value re-read hazard (R348; 70_reset_and_hazards.md R416): the
value dispatched is the cell's value at sub-action (3), whatever happened to the cell after the record was taken. With `t` the
state after sub-action (3) of a dispatch whose cell holds `v` by then: a record of the audio range pushes `v`, or is dropped when
the FIFO is full; one of the index port latches `v`; one of the data port writes `v` into the half the index names (44_teletext.md
R304, R305). The value `delivering` of irq_phase, where R164 has Idle, is the model's (log 11), and so are that sub-action (3) is
performed also where irq_enabled was cleared after (2) (log 11), the list of results (log 9), the offset of an entry (log 15), and
the first row of R305's table where two register indices are equal (log 20). -/
def Obligations.DispatchRereadsTheCell : Prop :=
  (∀ (s : State) (r : Word32), s.fatal = none → s.irqPhase = .idle → s.irqEnabled = true → s.R ≠ s.W →
    r = (if s.cfg.evsCap < (s.W - s.R).toNat then s.W - BitVec.ofNat 32 s.cfg.evsCap else s.R) →
    beginOp .eventDispatch s = .next { s with R := r, irqPhase := .polling s.W .dispatch }) ∧
  (∀ (s : State) (w : Word32), s.irqPhase = .polling w .dispatch →
    s.advance .irq = { s with R := s.R + 1#32, irqPhase := .delivering (s.evSlot s.R) }) ∧
  (∀ (s t : State) (loc : Addr) (v : Byte) (inAudio : Prop), s.irqPhase = .delivering loc →
    (inAudio ↔ s.cfg.audio.base.toNat ≤ loc.toNat ∧ loc.toNat < s.cfg.audio.base.toNat + s.cfg.audio.woLen) →
    t = (s.writeByte loc v).advance .irq →
    (∃ cls, t = { s.writeByte loc v with
      irqPhase := .idle, results := (.irq, .handled loc cls) :: s.results, afSlot := t.afSlot, afHead := t.afHead,
      ttCrtcIdx := t.ttCrtcIdx, ttStart := t.ttStart, ttCursor := t.ttCursor }) ∧
    (inAudio → (s.afHead - s.afTail).toNat ≠ s.cfg.afifoCap →
      t.afHead = s.afHead + 1#32 ∧ (t.afSlotAt s.afHead).val = v.setWidth 9) ∧
    ((inAudio → (s.afHead - s.afTail).toNat = s.cfg.afifoCap) → t.afHead = s.afHead ∧ t.afSlot = s.afSlot) ∧
    (¬inAudio → loc = s.cfg.tt.crtcAddr → t.ttCrtcIdx = v) ∧
    (inAudio ∨ loc ≠ s.cfg.tt.crtcAddr → t.ttCrtcIdx = s.ttCrtcIdx) ∧
    (¬inAudio → loc ≠ s.cfg.tt.crtcAddr → loc = s.cfg.tt.crtcData →
      (s.ttCrtcIdx = s.cfg.tt.crtcStartHi → t.ttStart = v ++ s.ttStart.extractLsb' 0 8 ∧ t.ttCursor = s.ttCursor) ∧
      (s.ttCrtcIdx ≠ s.cfg.tt.crtcStartHi → s.ttCrtcIdx = s.cfg.tt.crtcStartLo →
        t.ttStart = s.ttStart.extractLsb' 8 8 ++ v ∧ t.ttCursor = s.ttCursor) ∧
      (s.ttCrtcIdx ≠ s.cfg.tt.crtcStartHi → s.ttCrtcIdx ≠ s.cfg.tt.crtcStartLo → s.ttCrtcIdx = s.cfg.tt.crtcCursorHi →
        t.ttStart = s.ttStart ∧ t.ttCursor = v ++ s.ttCursor.extractLsb' 0 8) ∧
      (s.ttCrtcIdx ≠ s.cfg.tt.crtcStartHi → s.ttCrtcIdx ≠ s.cfg.tt.crtcStartLo → s.ttCrtcIdx ≠ s.cfg.tt.crtcCursorHi →
        s.ttCrtcIdx = s.cfg.tt.crtcCursorLo →
        t.ttStart = s.ttStart ∧ t.ttCursor = s.ttCursor.extractLsb' 8 8 ++ v) ∧
      (s.ttCrtcIdx ∉ [s.cfg.tt.crtcStartHi, s.cfg.tt.crtcStartLo, s.cfg.tt.crtcCursorHi, s.cfg.tt.crtcCursorLo] →
        t.ttStart = s.ttStart ∧ t.ttCursor = s.ttCursor)) ∧
    (inAudio ∨ loc = s.cfg.tt.crtcAddr ∨ loc ≠ s.cfg.tt.crtcData → t.ttStart = s.ttStart ∧ t.ttCursor = s.ttCursor))

/-- A register of the CRTC latch is loaded by two port writes per half (44_teletext.md R303-R305): with both ports tagged WRITE,
writing the high index, the high byte, the low index and the low byte, each dispatched before the next write, leaves the start
register holding the two bytes, and the cursor register as it was. Where an index of the cursor register is equal to one of the
start register's, that the start register is the one written is the model's choice (log 20). -/
def Obligations.CrtcStartLoadedByPortWrites : Prop :=
  ∀ (s : State) (hi lo : Byte), s.fatal = none → s.cfg.wf = true → s.paused = false → s.irqPhase = .idle →
    s.irqEnabled = true → s.R = s.W →
    (s.permAt s.cfg.tt.crtcAddr).getLsbD 1 = true → (s.permAt s.cfg.tt.crtcData).getLsbD 1 = true →
    classify s.cfg s.cfg.tt.crtcAddr = .crtcIndex → classify s.cfg s.cfg.tt.crtcData = .crtcData →
    s.cfg.tt.crtcStartHi ≠ s.cfg.tt.crtcStartLo →
    ∃ t, execAll [.busWr s.cfg.tt.crtcAddr s.cfg.tt.crtcStartHi, .eventDispatch, .busWr s.cfg.tt.crtcData hi, .eventDispatch,
        .busWr s.cfg.tt.crtcAddr s.cfg.tt.crtcStartLo, .eventDispatch, .busWr s.cfg.tt.crtcData lo, .eventDispatch] s =
        .next t ∧
      t.ttStart = hi ++ lo ∧ t.ttCursor = s.ttCursor ∧ t.ttCrtcIdx = s.cfg.tt.crtcStartLo ∧ t.R = t.W

/-- Taking the event-drain interrupt (60_exceptions.md R386, R389): it is taken exactly when it is pending (R != W), enabled and
the IRQ agent is between operations, and taking it saves nothing: only the model's mark that the handler runs changes (log 19). -/
def Obligations.InterruptIsTakenWhenPendingAndEnabled : Prop :=
  ∀ (s : State) (rest : List Slot), s.fatal = none → s.sched = ⟨.irq, .takeIrq⟩ :: rest →
    (s.R ≠ s.W → s.irqEnabled = true → s.irqPhase = .idle →
      step s = .next { s with sched := rest, irqService := true }) ∧
    (s.R = s.W ∨ s.irqEnabled = false ∨ s.irqPhase ≠ .idle → step s = .next { s with sched := rest })

/-- The handler drains the ring and returns (30_encoding.md R103; 60_exceptions.md R386, R390): from any ring, EVENT_DISPATCH repeated until
its result is Empty handles the unread records still held, oldest first, and ends with nothing pending and the interrupt still
enabled; shadow memory and tags are untouched. The loop's bound and the list of results are the model's (log 23, log 9). -/
def Obligations.HandlerDrainsTheRing : Prop :=
  ∀ (s : State) (n : Nat), s.fatal = none → s.cfg.wf = true → s.irqPhase = .idle → s.irqEnabled = true →
    min s.gap.toNat s.cfg.evsCap < n →
    ∃ t, irqServiceLoop n s = .next t ∧ t.R = s.W ∧ t.W = s.W ∧ t.pending = false ∧ t.irqEnabled = true ∧
      t.irqPhase = .idle ∧ t.shadow = s.shadow ∧ t.perm = s.perm ∧
      t.results = (.irq, .empty) ::
        ((s.unread.map fun a => (Agent.irq, Result.handled a (classify s.cfg a))).reverse ++ s.results)

/-! ## The pipeline -/

/-- RENDER_LINE in both forms (42_scanline_pipeline.md R191-R194): the line form reduces its index modulo FRAME_LINES, pushes the token
and returns the slot `l mod N_POOL`; the VSYNC form pushes VSYNC and returns None. Into a full queue the token is dropped, with
the same result. The list of results is the model's (log 9). -/
def Obligations.RenderLineRequests : Prop :=
  ∀ (s : State) (i : Instr) (tok : Token) (answer : Option Nat), s.fatal = none →
    ((∃ line l, i = .renderLine line ∧ l = line.toNat % s.cfg.frameLines ∧ tok = .line (BitVec.ofNat 32 l) ∧
        answer = some (l % s.cfg.nPool)) ∨
      (i = .renderLineVsync ∧ tok = .vsync ∧ answer = none)) →
    ∃ t, exec i s = .next t ∧
      t = { s with rqSlot := t.rqSlot, rqHead := t.rqHead, results := (.vid, .slot answer) :: s.results } ∧
      ((s.rqHead - s.rqTail).toNat = s.cfg.rqCap → t.rqSlot = s.rqSlot ∧ t.rqHead = s.rqHead) ∧
      ((s.rqHead - s.rqTail).toNat ≠ s.cfg.rqCap → t.rqHead = s.rqHead + 1#32 ∧
        ∀ n, t.rqSlotAt n =
          if slotOf n s.cfg.rqCap = slotOf s.rqHead s.cfg.rqCap then tok else s.rqSlotAt n)

/-- Both cross-context queues are FIFOs (10_state.md R28, R37; 20_memory.md R73; 42_scanline_pipeline.md R193; 45_audio.md R347):
a push into a queue that is not full appends to its list of tokens or entries, a push into a full one
changes nothing, and a pop takes the oldest. A count that would reach 2^32 is left out (log 26). -/
def Obligations.QueuesAreFifos : Prop :=
  ∀ s : State, s.cfg.wf = true →
    (∀ tok : Token, (s.rqTokens.length = s.cfg.rqCap → s.rqPush tok = s) ∧
      (s.rqTokens.length < s.cfg.rqCap → s.rqTokens.length + 1 < 2 ^ 32 →
        (s.rqPush tok).rqTokens = s.rqTokens ++ [tok])) ∧
    (∀ (tok : Token) (toks : List Token), s.rqTokens = tok :: toks → s.rqTop = tok ∧ s.rqPop.rqTokens = toks) ∧
    (∀ e : Entry, (s.afEntries.length = s.cfg.afifoCap → s.afPush e = s) ∧
      (s.afEntries.length < s.cfg.afifoCap → s.afEntries.length + 1 < 2 ^ 32 →
        (s.afPush e).afEntries = s.afEntries ++ [e])) ∧
    (∀ (e : Entry) (es : List Entry), s.afEntries = e :: es → s.afTop = e ∧ s.afPop.afEntries = es)

/-- RENDER_STEP on a VSYNC token (42_scanline_pipeline.md R200): the token is popped, the frame counter counts, nothing else changes. -/
def Obligations.VsyncStepCountsAFrame : Prop :=
  ∀ s : State, s.fatal = none → s.rendPhase = .idle → s.rqHead ≠ s.rqTail → s.rqSlotAt s.rqTail = .vsync →
    exec .renderStep s = .next { s with rqTail := s.rqTail + 1#32, fc := s.fc + 1#32 }

/-- RENDER_STEP on a line token (42_scanline_pipeline.md R195-R199), uninterrupted: the target line `t` is N_POOL - 1 ahead of the
request, its slot is `t mod N_POOL`, the renderer is latched at target line 0, every pixel of that slot is the line function's
and no other slot's pixel changes; the bookkeeping of the renderers not in force is unchanged; the step ends with no slot being
written. -/
def Obligations.RenderStepWritesTheTargetLine : Prop :=
  ∀ (s : State) (p : Word32) (t slot : Nat) (rf : Renderer), s.fatal = none → s.rendPhase = .idle → s.rqHead ≠ s.rqTail →
    s.rqSlotAt s.rqTail = .line p → t = (p.toNat + s.cfg.nPool - 1) % s.cfg.frameLines → slot = t % s.cfg.nPool →
    rf = (if t = 0 then s.rendererCfg else s.rendererFrame) →
    ∃ u, exec .renderStep s = .next u ∧
      u = { s with
        rqTail := s.rqTail + 1#32, rendererFrame := rf, pool := u.pool, writingSlot := none, rowBase := u.rowBase,
        lineCount := u.lineCount, lastMode := u.lastMode, ttLowerNext := u.ttLowerNext, ttLowerCur := u.ttLowerCur } ∧
      (∀ l x, x < s.cfg.linePixels → u.poolAt l x =
        if l = slot then linePixel s.cfg (s.lineCtx rf t) (s.liveRead (s.lineCtx rf t)) x else s.poolAt l x) ∧
      (rf ≠ .vdg → u.rowBase = s.rowBase ∧ u.lineCount = s.lineCount ∧ u.lastMode = s.lastMode) ∧
      (rf ≠ .teletext → u.ttLowerNext = s.ttLowerNext ∧ u.ttLowerCur = s.ttLowerCur)

/-- POOL_READ inside the pool (42_scanline_pipeline.md R201) returns the pixel; no state changes but the list of results (log 9). Outside the pool it
is refused. -/
def Obligations.PoolReadAnswersThePixel : Prop :=
  ∀ (s : State) (k : Byte) (x : BitVec 16), s.fatal = none →
    (k.toNat < s.cfg.nPool → x.toNat < s.cfg.linePixels →
      exec (.poolRead k x) s = .next { s with results := (.vid, .pixel (s.poolAt k.toNat x.toNat)) :: s.results }) ∧
    (s.cfg.nPool ≤ k.toNat ∨ s.cfg.linePixels ≤ x.toNat → exec (.poolRead k x) s = .next { s with refused := true })

/-- The pool invariant (42_scanline_pipeline.md R203). A call for line `li` returns slot `li mod N_POOL`; a step for request `lj` writes the
slot `writing_slot` names. They differ iff `(li - lj + 1) mod N_POOL` is not 0; with a lag of at most N_POOL - 2 consecutive
requests they always differ, and a lag of N_POOL - 1 makes them alias. -/
def Obligations.PoolInvariant : Prop :=
  ∀ (s : State) (lj : Word32) (li : Nat), s.cfg.wf = true → s.rqSlotAt s.rqTail = .line lj → lj.toNat < s.cfg.frameLines →
    li < s.cfg.frameLines →
    ∃ w, s.stepPop.writingSlot = some w ∧
      (w ≠ li % s.cfg.nPool ↔ ((li : Int) - (lj.toNat : Int) + 1) % (s.cfg.nPool : Int) ≠ 0) ∧
      (∀ d, d ≤ s.cfg.nPool - 2 → li = (lj.toNat + d) % s.cfg.frameLines → w ≠ li % s.cfg.nPool) ∧
      (li = (lj.toNat + (s.cfg.nPool - 1)) % s.cfg.frameLines → w = li % s.cfg.nPool)

/-- A RENDER_STEP's sub-actions, taken in the order of the pseudocode with nothing between, end, and end in exactly the state
that the uninterrupted operation gives, in a state of canonical form (42_scanline_pipeline.md R195; log 3, log 12). -/
def Obligations.RenderStepRunRefinesExec : Prop :=
  ∀ s t0 : State, s.canonical = true → s.fatal = none → s.rendPhase = .idle → s.rqHead ≠ s.rqTail →
    beginOp .renderStep s = .next t0 →
    ∃ n, (t0.advanceN .rend n).rendPhase = .idle ∧ exec .renderStep s = .next (t0.advanceN .rend n)

/-- Shadow reads and pixel writes (42_scanline_pipeline.md R195, R207). A pixel write is its own sub-action and writes one pixel of
the slot; one whose reads are not all made is not enabled; the value of one that is enabled depends on the bytes already read
alone. Each shadow read takes the cell's value at its own moment (20_memory.md R67), and the first one of the line takes `reveal`,
`tt_start` and `tt_cursor` as they stand then, for the whole scan (44_teletext.md R305, R306); a pixel enabled before it depends
on none of the three. A read the line makes is admitted whichever of its other reads have been made. Which reads a pixel waits for,
and that a scan begins with its first read, are the model's reading (log 12, log 13). -/
def Obligations.PixelWrittenAfterItsReads : Prop :=
  (∀ (s : State) (x : LineCtx) (slot : Nat) (reads : List (LineRead × Byte)) (written : List Nat) (p : Nat),
    s.rendPhase = .rendering x slot reads written → p < s.cfg.linePixels → p ∉ written →
    (linePixelReady s.cfg x (knownRead reads) p = true →
      s.rendWrite p = { s.writePixel slot p (linePixel s.cfg x (readOr0 reads) p) with
        rendPhase := .rendering x slot reads (p :: written) }) ∧
    (linePixelReady s.cfg x (knownRead reads) p = false → s.rendWrite p = s)) ∧
  (∀ (s : State) (slot p : Nat) (v : Pixel) (l y : Nat), p < s.cfg.linePixels → y < s.cfg.linePixels →
    (s.writePixel slot p v).poolAt l y = if l = slot ∧ y = p then v else s.poolAt l y) ∧
  (∀ (c : Cfg) (x : LineCtx) (known : LineRead → Option Byte) (p : Nat) (rd rd' : LineRead → Byte),
    linePixelReady c x known p = true → (∀ r v, known r = some v → rd r = v ∧ rd' r = v) →
    linePixel c x rd p = linePixel c x rd' p) ∧
  (∀ (s : State) (x : LineCtx) (slot : Nat) (reads : List (LineRead × Byte)) (written : List Nat) (r : LineRead)
    (a : Addr) (v : Byte),
    s.rendPhase = .rendering x slot reads written → r ∈ lineReads s.cfg x (knownRead reads) → knownRead reads r = none →
    lineReadReady (knownRead reads) r = true →
    ∃ y, y = (if reads = [] then { x with reveal := s.reveal, ttStart := s.ttStart, ttCursor := s.ttCursor } else x) ∧
      (s.writeByte a v).rendRead r = { s.writeByte a v with
        rendPhase := .rendering y slot
          ((r, if lineReadAddr s.cfg y r = a then v else s.readByte (lineReadAddr s.cfg y r)) :: reads) written }) ∧
  (∀ (c : Cfg) (x : LineCtx) (rv : Bool) (st cu : Addr) (rd : LineRead → Byte) (p : Nat),
    linePixelReady c x (fun _ => none) p = true →
    linePixel c x rd p = linePixel c { x with reveal := rv, ttStart := st, ttCursor := cu } rd p) ∧
  (∀ (c : Cfg) (x : LineCtx) (known fewer : LineRead → Option Byte) (r : LineRead),
    (∀ q v, fewer q = some v → known q = some v) → r ∈ lineReads c x known → r ∈ lineReads c x fewer)

/-! ## The line functions -/

/-- Border lines (42_scanline_pipeline.md R206): on a target line outside a renderer's vertical window every pixel is that renderer's
border colour, and on an active line so is every pixel outside its horizontal span; so is the whole of a VDG line whose mode
nibble has bit 0 set and no graphics geometry (43_scanline_decode.md R250). -/
def Obligations.BorderPixels : Prop :=
  ∀ (c : Cfg) (x : LineCtx) (rd : LineRead → Byte) (p : Nat),
    (x.renderer = .vdg → (x.target < c.vdg.vStart ∨ c.vdg.vStart + c.vdg.vLines ≤ x.target ∨ p < c.vdg.hStart ∨
        c.vdg.hStart + 256 * c.vdg.xscale ≤ p) → linePixel c x rd p = c.vdg.border) ∧
    (x.renderer = .teletext → (x.target < c.tt.vStart ∨ c.tt.vStart + 500 ≤ x.target ∨ p < c.tt.hStart ∨
        c.tt.hStart + 40 * 12 * c.tt.xscale ≤ p) → linePixel c x rd p = c.tt.border) ∧
    (x.renderer = .attr80 → (x.target < c.a80.vStart ∨ c.a80.vStart + c.a80.rows * c.a80.gh ≤ x.target ∨
        p < c.a80.hStart ∨ c.a80.hStart + 640 ≤ p) → linePixel c x rd p = c.a80.border) ∧
    (∀ m : BitVec 4, x.renderer = .vdg → m = BitVec.ofNat 4 ((rd .mode).toNat / 2 ^ c.vdg.modeShift) → m.toNat % 2 = 1 →
      modeEntry c.vdg.modeTable m.toNat = none →
      linePixel c x rd p = c.vdg.border ∧ (vdgVariant c.vdg m).div = 1 ∧ (vdgVariant c.vdg m).stride = 0)

/-- The VDG bookkeeping (43_scanline_decode.md R230, R231, R234-R237) that a RENDER_STEP in the VDG renderer leaves: on an active line the row
base and line count start from 0 at the first active line, the count restarts on a mode change, and the row advances by the
mode's stride after its divisor of lines; on an inactive line nothing changes. -/
def Obligations.VdgRowAdvance : Prop :=
  ∀ (s : State) (p : Word32) (t : Nat) (m : BitVec 4) (rb : Addr) (lc div stride : Nat),
    s.fatal = none → s.rendPhase = .idle → s.rqHead ≠ s.rqTail → s.rqSlotAt s.rqTail = .line p →
    t = (p.toNat + s.cfg.nPool - 1) % s.cfg.frameLines →
    (if t = 0 then s.rendererCfg else s.rendererFrame) = .vdg →
    m = BitVec.ofNat 4 ((s.readByte s.cfg.vdg.modeAddr).toNat / 2 ^ s.cfg.vdg.modeShift) →
    rb = (if t = s.cfg.vdg.vStart then 0#16 else s.rowBase) →
    lc = (if t = s.cfg.vdg.vStart ∨ s.lastMode ≠ some m then 0 else s.lineCount.toNat) →
    ((m.toNat % 2 = 0 ∧ div = 12 ∧ stride = 32) ∨
      (m.toNat % 2 = 1 ∧ ∃ g, modeEntry s.cfg.vdg.modeTable m.toNat = some g ∧ div = g.div.toNat ∧
        stride = g.hRes.pixels * g.bpp.bits / 8) ∨
      (m.toNat % 2 = 1 ∧ modeEntry s.cfg.vdg.modeTable m.toNat = none ∧ div = 1 ∧ stride = 0)) →
    ∃ u, exec .renderStep s = .next u ∧
      (s.cfg.vdg.vStart ≤ t → t < s.cfg.vdg.vStart + s.cfg.vdg.vLines →
        u.lastMode = some m ∧
        (div ≤ lc + 1 → u.rowBase = rb + BitVec.ofNat 16 stride ∧ u.lineCount = 0#8) ∧
        (lc + 1 < div → u.rowBase = rb ∧ u.lineCount = BitVec.ofNat 8 (lc + 1))) ∧
      (t < s.cfg.vdg.vStart ∨ s.cfg.vdg.vStart + s.cfg.vdg.vLines ≤ t →
        u.rowBase = s.rowBase ∧ u.lineCount = s.lineCount ∧ u.lastMode = s.lastMode)

/-- VDG text lines (43_scanline_decode.md R242-R245, R247-R249): dot `dot` of column `col` fills XSCALE output pixels from
`VDG_H_START + (8 col + dot) XSCALE`, and its colour is the alpha dot's, the 2x2 cell's or the 2x3 cell's. `sub` is the
sub-scanline, the line count the step uses. -/
def Obligations.VdgTextPixels : Prop :=
  ∀ (c : Cfg) (x : LineCtx) (rd : LineRead → Byte) (m : BitVec 4) (col dot k sub css : Nat),
    x.renderer = .vdg → c.vdg.vStart ≤ x.target → x.target < c.vdg.vStart + c.vdg.vLines →
    m = BitVec.ofNat 4 ((rd .mode).toNat / 2 ^ c.vdg.modeShift) → m.toNat % 2 = 0 →
    css = (rd .css).toNat / 2 ^ c.vdg.cssBit % 2 → sub = vdgLineCount c.vdg x m → sub < 12 →
    col < 32 → dot < 8 → k < c.vdg.xscale →
    (∀ bank idx inv, charCell c.vdg (rd (.row col)) = .alpha bank idx inv →
      linePixel c x rd (c.vdg.hStart + (8 * col + dot) * c.vdg.xscale + k) =
        if ((vdgGlyph c.vdg bank idx sub).getLsbD (7 - dot) ^^ inv) = true then Sparse.get 0#8 c.vdg.textFg css
        else Sparse.get 0#8 c.vdg.textBg css) ∧
    (∀ bits colour, charCell c.vdg (rd (.row col)) = .semi4 bits colour →
      linePixel c x rd (c.vdg.hStart + (8 * col + dot) * c.vdg.xscale + k) =
        if bits.getLsbD ((if dot < 4 then 3 else 2) - 2 * (sub / 6)) = true then colour else c.vdg.semiBg) ∧
    (∀ bits colour, charCell c.vdg (rd (.row col)) = .semi6 bits colour →
      linePixel c x rd (c.vdg.hStart + (8 * col + dot) * c.vdg.xscale + k) =
        if bits.getLsbD ((if dot < 4 then 5 else 4) - 2 * (sub / 4)) = true then colour else c.vdg.semiBg)

/-- VDG packed graphics (43_scanline_decode.md R238-R241): logical pixel `j` fills `Rp = (256 div h_res) XSCALE` output pixels from
`VDG_H_START + j Rp`; its field is bpp bits of byte `j bpp div 8` of the row, leftmost pixel in the most significant bits, and
its colour the palette's entry for css and field. -/
def Obligations.VdgGraphicsPixels : Prop :=
  ∀ (c : Cfg) (x : LineCtx) (rd : LineRead → Byte) (m : BitVec 4) (g : Geometry) (j k rp css f : Nat),
    x.renderer = .vdg → c.vdg.vStart ≤ x.target → x.target < c.vdg.vStart + c.vdg.vLines →
    m = BitVec.ofNat 4 ((rd .mode).toNat / 2 ^ c.vdg.modeShift) → m.toNat % 2 = 1 →
    modeEntry c.vdg.modeTable m.toNat = some g → css = (rd .css).toNat / 2 ^ c.vdg.cssBit % 2 →
    j < g.hRes.pixels → rp = 256 / g.hRes.pixels * c.vdg.xscale → k < rp →
    f = (rd (.row (j * g.bpp.bits / 8))).toNat / 2 ^ (8 - g.bpp.bits - j * g.bpp.bits % 8) % 2 ^ g.bpp.bits →
    (g.bpp = .one → linePixel c x rd (c.vdg.hStart + j * rp + k) = Sparse.get 0#8 c.vdg.pal2 (css * 2 + f)) ∧
    (g.bpp = .two → linePixel c x rd (c.vdg.hStart + j * rp + k) = Sparse.get 0#8 c.vdg.pal4 (css * 4 + f))

/-- The addresses a line reads (43_scanline_decode.md R231, R238, R242, R256, R257; 44_teletext.md R281), each taken modulo 2^16
(20_memory.md R62). -/
def Obligations.LineReadAddresses : Prop :=
  ∀ (c : Cfg) (x : LineCtx) (k : Nat),
    lineReadAddr c x .mode = c.vdg.modeAddr ∧ lineReadAddr c x .css = c.vdg.cssAddr ∧
    (lineReadAddr c x (.row k)).toNat =
      (c.vdg.vramBase.toNat + (if x.target = c.vdg.vStart then 0 else x.rowBase.toNat) + k) % 2 ^ 16 ∧
    lineReadAddr c x .ctrl0 = c.a80.ctrl0 ∧ lineReadAddr c x .ctrl1 = c.a80.ctrl1 ∧
    (lineReadAddr c x (.ch k)).toNat =
      (c.a80.base.toNat + 80 * ((x.target - c.a80.vStart) / c.a80.gh) + k) % 2 ^ 16 ∧
    (lineReadAddr c x (.attr k)).toNat =
      (c.a80.attrBase.toNat + 80 * ((x.target - c.a80.vStart) / c.a80.gh) + k) % 2 ^ 16 ∧
    (lineReadAddr c x (.cell k)).toNat =
      (c.tt.base.toNat + (x.ttStart.toNat + 40 * ((x.target - c.tt.vStart) / 20) + k) % 2 ^ 16) % 2 ^ 16

/-- The 80-column mode (43_scanline_decode.md R256-R259): dot `dot` of column `col` is output pixel `A80_H_START + 8 col + dot`; the
attribute byte overrides the defaults where the plane is enabled, and the underline forces the row. -/
def Obligations.A80Pixels : Prop :=
  ∀ (c : Cfg) (x : LineCtx) (rd : LineRead → Byte) (col dot sub : Nat) (fg bg : BitVec 3) (ul : Bool) (gr : Byte),
    x.renderer = .attr80 → c.a80.vStart ≤ x.target → x.target < c.a80.vStart + c.a80.rows * c.a80.gh → col < 80 → dot < 8 →
    sub = (x.target - c.a80.vStart) % c.a80.gh →
    ((rd .ctrl1).getLsbD 0 = true → fg = (rd (.attr col)).extractLsb' 0 3 ∧ bg = (rd (.attr col)).extractLsb' 3 3 ∧
      ul = (rd (.attr col)).getLsbD 6) →
    ((rd .ctrl1).getLsbD 0 = false → fg = (rd .ctrl0).extractLsb' 0 3 ∧ bg = (rd .ctrl0).extractLsb' 4 3 ∧ ul = false) →
    gr = (if ul = true ∧ sub = c.a80.ulRow then 0xFF#8 else Sparse.get 0#8 c.a80.glyph (sub * 256 + (rd (.ch col)).toNat)) →
    linePixel c x rd (c.a80.hStart + 8 * col + dot) =
      Sparse.get 0#8 c.a80.pal (((rd .ctrl1).getLsbD 1).toNat * 8 +
        (if gr.getLsbD (7 - dot) = true then fg else bg).toNat)

/-- The two-pixel lookup (43_scanline_decode.md R260): on an active line, output pixels `8 col + 2 i` and `8 col + 2 i + 1` of the span are
the table's pair for the column's colours and the two dots of its glyph row. -/
def Obligations.A80LookupAgrees : Prop :=
  ∀ (c : Cfg) (x : LineCtx) (rd : LineRead → Byte) (col i : Nat) (gr : Byte) (pp : BitVec 2),
    x.renderer = .attr80 → c.a80.vStart ≤ x.target → x.target < c.a80.vStart + c.a80.rows * c.a80.gh → col < 80 → i < 4 →
    gr = a80Dots c.a80 (rd (.ch col)) (a80Style rd col).ul (a80GlyphRow c.a80 x.target) →
    pp = gr.extractLsb' (6 - 2 * i) 2 →
    (linePixel c x rd (c.a80.hStart + 8 * col + 2 * i), linePixel c x rd (c.a80.hStart + 8 * col + 2 * i + 1)) =
      a80Lut c.a80 ((a80Style rd col).bg ++ (rd .ctrl1).extractLsb' 1 1 ++ (a80Style rd col).fg ++ pp)

/-- The teletext property of 44_teletext.md R307: a row that starts with graphics red and 'A' shows a blank cell on colour 0, then 'A' in
colour 1 on colour 0, and the scan goes on in red graphics. -/
def Obligations.TeletextTwoPhaseExample : Prop :=
  ∀ (c : Cfg) (x : LineCtx) (rd : LineRead → Byte) (dot k : Nat), x.renderer = .teletext →
    c.tt.vStart ≤ x.target → x.target < c.tt.vStart + 500 → dot < 12 → k < c.tt.xscale →
    rd (.cell 0) &&& 0x7F#8 = 0x11#8 → rd (.cell 1) &&& 0x7F#8 = 0x41#8 →
    ttCursorOn c.tt x 0 = false → ttCursorOn c.tt x 1 = false →
    linePixel c x rd (c.tt.hStart + dot * c.tt.xscale + k) = Sparse.get 0#8 c.tt.palette 0 ∧
    linePixel c x rd (c.tt.hStart + (12 + dot) * c.tt.xscale + k) =
      Sparse.get 0#8 c.tt.palette
        (if (ttGlyph c.tt 0x41#8 ((x.target - c.tt.vStart) % 20)).getLsbD (11 - dot) = true then 1 else 0) ∧
    (scanBefore rd 2).fg = 1#3 ∧ (scanBefore rd 2).gfx = true ∧ (scanBefore rd 2).bg = 0#3

/-- The scan state of teletext (44_teletext.md R283-R289, R295). It starts as R283 gives it; a column's code is the low seven bits of
its byte; and a cell acts in the order set-at effect, remembered mosaic, set-after effect (R286). Every set-at code has the effect
of R287's table and no other code has one; every set-after code has the effect of R288's table and no other code has one; exactly a
mosaic cell is remembered (R295). The seven other control codes (R289) change no scan state, and their cells display as control
cells (R296). -/
def Obligations.ControlCodeEffects : Prop :=
  (∀ (rd : LineRead → Byte) (col : Nat),
    scanBefore rd 0 = {
      fg := 7#3, bg := 0#3, gfx := false, sep := false, hold := false, conceal := false, flash := false, dh := false,
      held := none, rowDh := false } ∧
    scanBefore rd (col + 1) = (scanBefore rd col).next (rd (.cell col) &&& 0x7F#8)) ∧
  ∀ (st : Scan) (code : Byte),
    st.next code = ((st.setAt code).holdMosaic code).setAfter code ∧
    -- set-at
    st.setAt 0x0C#8 = { st with dh := false } ∧ st.setAt 0x0D#8 = { st with dh := true, rowDh := true } ∧
    st.setAt 0x1C#8 = { st with bg := 0#3 } ∧ st.setAt 0x1D#8 = { st with bg := st.fg } ∧
    st.setAt 0x1E#8 = { st with hold := true } ∧ st.setAt 0x09#8 = { st with flash := false } ∧
    st.setAt 0x19#8 = { st with sep := false } ∧ st.setAt 0x1A#8 = { st with sep := true } ∧
    (code ∉ [0x09#8, 0x0C#8, 0x0D#8, 0x19#8, 0x1A#8, 0x1C#8, 0x1D#8, 0x1E#8] → st.setAt code = st) ∧
    -- set-after
    (∀ n, 1 ≤ n → n ≤ 7 → st.setAfter (BitVec.ofNat 8 n) = { st with fg := BitVec.ofNat 3 n, gfx := false }) ∧
    (∀ n, 1 ≤ n → n ≤ 7 → st.setAfter (BitVec.ofNat 8 (0x10 + n)) = { st with fg := BitVec.ofNat 3 n, gfx := true }) ∧
    st.setAfter 0x08#8 = { st with flash := true } ∧ st.setAfter 0x18#8 = { st with conceal := true } ∧
    st.setAfter 0x1F#8 = { st with hold := false } ∧
    (code ∉ [0x01#8, 0x02#8, 0x03#8, 0x04#8, 0x05#8, 0x06#8, 0x07#8, 0x08#8, 0x11#8, 0x12#8, 0x13#8, 0x14#8, 0x15#8, 0x16#8,
      0x17#8, 0x18#8, 0x1F#8] → st.setAfter code = st) ∧
    -- the remembered mosaic
    (0x20 ≤ code.toNat → st.gfx = true → code.getLsbD 5 = true →
      st.holdMosaic code = { st with held := some (code, st.sep) }) ∧
    (code.toNat < 0x20 ∨ st.gfx = false ∨ code.getLsbD 5 = false → st.holdMosaic code = st) ∧
    -- the other control codes
    (code ∈ [0x00#8, 0x0A#8, 0x0B#8, 0x0E#8, 0x0F#8, 0x10#8, 0x1B#8] →
      st.next code = st ∧
      (∀ (c : TtCfg) (k : Nat) (lower : Bool), st.hold = false ∨ st.held = none → st.bitmap c code k lower = 0#12) ∧
      (∀ (c : TtCfg) (k : Nat) (lower : Bool) (hc : Byte) (hs : Bool), st.hold = true → st.held = some (hc, hs) →
        st.bitmap c code k lower = ttMosaic c hc (st.erow k lower) hs (st.dh && lower)))

/-- Placement of a teletext cell (44_teletext.md R300) and its overlays (R297-R299): dot `dot` of column `col` fills TT_XSCALE output
pixels from `TT_H_START + (12 col + dot) TT_XSCALE`, in the foreground where bit `11 - dot` of the cell's bitmap is set. The bitmap is
cleared by flash in the blank frames and by conceal unless revealed, and inverted under the cursor in the bottom band while
the cursor blinks on. -/
def Obligations.TeletextCellPixels : Prop :=
  ∀ (c : Cfg) (x : LineCtx) (rd : LineRead → Byte) (col dot k sub : Nat) (code : Byte) (st : Scan) (bm0 bm : BitVec 12),
    x.renderer = .teletext → c.tt.vStart ≤ x.target → x.target < c.tt.vStart + 500 → col < 40 → dot < 12 →
    k < c.tt.xscale → sub = (x.target - c.tt.vStart) % 20 → code = rd (.cell col) &&& 0x7F#8 →
    st = (scanBefore rd col).setAt code → bm0 = st.bitmap c.tt code sub (ttLower c.tt x) →
    bm = (if (st.flash = true ∧ x.fc.toNat % 64 < 21) ∨ (st.conceal = true ∧ x.reveal = false) then 0#12 else bm0) →
    linePixel c x rd (c.tt.hStart + (12 * col + dot) * c.tt.xscale + k) =
      Sparse.get 0#8 c.tt.palette
        (if ((if x.ttStart + BitVec.ofNat 16 (40 * ((x.target - c.tt.vStart) / 20) + col) = x.ttCursor ∧
              c.tt.cursorBandStart ≤ sub ∧ x.fc.toNat % c.tt.cursorPeriod < c.tt.cursorOn
            then bm ^^^ 0xFFF#12 else bm).getLsbD (11 - dot)) = true then st.fg else st.bg).toNat

/-- Cell content (44_teletext.md R291-R294, R296): an alpha cell shows its glyph row, a mosaic cell (a printable code with bit 5
set, in graphics mode) its mosaic row, a control cell nothing or, under hold, the held mosaic; a double-height cell samples
row `k div 2`, plus 10 in a lower half. -/
def Obligations.TeletextCellContent : Prop :=
  ∀ (st : Scan) (c : TtCfg) (code : Byte) (k erow : Nat) (lower : Bool), k < 20 →
    erow = (if st.dh = true then (if lower = true then 10 + k / 2 else k / 2) else k) →
    erow < 20 ∧
    (0x20 ≤ code.toNat → st.gfx = true → code.getLsbD 5 = true →
      st.bitmap c code k lower = Sparse.get 0#12 c.mosaic
        (erow * 256 + code.toNat % 64 * 4 + st.sep.toNat * 2 + (st.dh && lower).toNat)) ∧
    (0x20 ≤ code.toNat → st.gfx = false ∨ code.getLsbD 5 = false →
      st.bitmap c code k lower = Sparse.get 0#12 c.glyph (erow * 128 + code.toNat)) ∧
    (code.toNat < 0x20 → st.hold = false ∨ st.held = none → st.bitmap c code k lower = 0#12) ∧
    (code.toNat < 0x20 → ∀ hc hs, st.hold = true → st.held = some (hc, hs) →
      st.bitmap c code k lower = Sparse.get 0#12 c.mosaic
        (erow * 256 + hc.toNat % 64 * 4 + hs.toNat * 2 + (st.dh && lower).toNat))

/-- Flash timing (44_teletext.md R297): the visible phase is `fc mod 64 >= 21`, so every span of 64 frames, the counter's wrap included, has 43
visible ones. -/
def Obligations.FlashVisible43Of64 : Prop :=
  ∀ fc : Word32, (flashVisible fc = true ↔ 21 ≤ fc.toNat % 64) ∧
    ((List.range 64).filter fun i => flashVisible (fc + BitVec.ofNat 32 i)).length = 43

/-- The nibble expansion (44_teletext.md R301): byte j of the word for nibble i of a cell is the colour of dot `4 i + j`. -/
def Obligations.NibbleExpansionAgrees : Prop :=
  (∀ (cell : TtCell) (c : TtCfg) (i j : Nat), i < 3 → j < 4 →
    (ttExpand (cell.bm.extractLsb' (8 - 4 * i) 4) (ttColour c cell.fg) (ttColour c cell.bg)).extractLsb' (8 * j) 8 =
      cell.dot c (4 * i + j)) ∧
  ttExpand 0b1010#4 0x07#8 0x00#8 = 0x00070007#32

/-- The double-height lookahead (44_teletext.md R285, R290) that a RENDER_STEP in the teletext renderer leaves: the call for
sub-line 0 fixes whether the row is a lower half and starts the lookahead with what its own scan saw; a later call only adds to
it; row 0 is never a lower half; an inactive line changes nothing. -/
def Obligations.TeletextLookahead : Prop :=
  ∀ (s : State) (p : Word32) (t : Nat) (x : LineCtx), s.fatal = none → s.rendPhase = .idle → s.rqHead ≠ s.rqTail →
    s.rqSlotAt s.rqTail = .line p → t = (p.toNat + s.cfg.nPool - 1) % s.cfg.frameLines →
    (if t = 0 then s.rendererCfg else s.rendererFrame) = .teletext → x = s.lineCtx .teletext t →
    ∃ u, exec .renderStep s = .next u ∧
      (s.cfg.tt.vStart ≤ t → t < s.cfg.tt.vStart + 500 →
        ((t - s.cfg.tt.vStart) % 20 = 0 →
          u.ttLowerCur = (if t - s.cfg.tt.vStart < 20 then false else s.ttLowerNext) ∧
          (u.ttLowerNext = true ↔ ∃ col, col < 40 ∧ s.readByte (lineReadAddr s.cfg x (.cell col)) &&& 0x7F#8 = 0x0D#8)) ∧
        ((t - s.cfg.tt.vStart) % 20 ≠ 0 →
          u.ttLowerCur = s.ttLowerCur ∧
          (u.ttLowerNext = true ↔ s.ttLowerNext = true ∨
            ∃ col, col < 40 ∧ s.readByte (lineReadAddr s.cfg x (.cell col)) &&& 0x7F#8 = 0x0D#8))) ∧
      (t < s.cfg.tt.vStart ∨ s.cfg.tt.vStart + 500 ≤ t →
        u.ttLowerCur = s.ttLowerCur ∧ u.ttLowerNext = s.ttLowerNext)

/-! ## The audio consumer -/

/-- AUDIO_RESET (45_audio.md R350): the entry (0, SENTINEL) is pushed, or dropped when the FIFO is full; nothing else changes. -/
def Obligations.AudioResetPushesSentinel : Prop :=
  ∀ s : State, s.fatal = none → s.irqPhase = .idle → s.irqEnabled = true →
    ((s.afHead - s.afTail).toNat = s.cfg.afifoCap → exec .audioReset s = .next s) ∧
    ((s.afHead - s.afTail).toNat ≠ s.cfg.afifoCap →
      ∃ t, exec .audioReset s = .next t ∧ t = { s with afSlot := t.afSlot, afHead := s.afHead + 1#32 } ∧
        ∀ n, t.afSlotAt n =
          if slotOf n s.cfg.afifoCap = slotOf s.afHead s.cfg.afifoCap then ⟨0#8, 0x100#9⟩ else s.afSlotAt n)

/-- AUDIO_TICK (45_audio.md R351, R352): the entries in the FIFO are applied in the order they were pushed, the synthesizer is
clocked once, its sample's level is emitted, and the status bytes are written back, ungated and with no record; no other cell
and nothing else changes but the list of levels (log 9). The synthesizer's functions are opaque: the statement holds whatever
they are (log 14). The sub-actions, taken with nothing between, reach exactly the same state. -/
def Obligations.AudioTickAppliesInArrivalOrder : Prop :=
  ∀ (s : State) (y : SynthState) (smp : Sample), s.fatal = none → s.cfg.wf = true → s.audPhase = .idle →
    s.audioArmed = true →
    y = s.afEntries.foldl
      (fun y e => if e.val = 0x100#9 then synthResetVoices y else Config.synthWrite y e.off.toNat (e.val.setWidth 8))
      s.synth →
    smp = (Config.synthClock y s.cfg.audio.cyclesPerSample).2 →
    ∃ t, exec .audioTick s = .next t ∧
      t = { s with
        shadow := t.shadow, afTail := s.afHead, synth := (Config.synthClock y s.cfg.audio.cyclesPerSample).1,
        dacLevel := Config.pwmLevel smp, dacLog := Config.pwmLevel smp :: s.dacLog } ∧
      (∀ i, i < s.cfg.audio.roLen → t.readByte (statusAddr s.cfg i) = Config.synthStatus t.synth i) ∧
      (∀ a, (∀ i, i < s.cfg.audio.roLen → a ≠ statusAddr s.cfg i) → t.readByte a = s.readByte a) ∧
      (∀ i, i < s.cfg.audio.roLen →
        (statusAddr s.cfg i).toNat = s.cfg.audio.base.toNat + s.cfg.audio.woLen + i) ∧
      (∃ t0, beginOp .audioTick s = .next t0 ∧
        t0.advanceN .aud ((s.afHead - s.afTail).toNat + 1 + s.cfg.audio.roLen) = t)

/-- Entries pushed after a tick's sub-action (1) wait for the next tick (45_audio.md R351): with the FIFO holding `es` when the tick
starts and one entry `e` pushed into it then, the finished tick leaves exactly `e` queued. -/
def Obligations.LateEntriesWaitForTheNextTick : Prop :=
  ∀ (s t0 : State) (e : Entry), s.fatal = none → s.inv = true → s.cfg.wf = true → s.audPhase = .idle →
    s.audioArmed = true → s.afEntries.length < s.cfg.afifoCap → s.afEntries.length + 1 < 2 ^ 32 →
    beginOp .audioTick s = .next t0 →
    ((t0.afPush e).advanceN .aud (s.afEntries.length + 1 + s.cfg.audio.roLen)).audPhase = .idle ∧
    ((t0.afPush e).advanceN .aud (s.afEntries.length + 1 + s.cfg.audio.roLen)).afEntries = [e]

/-- Voice reset (45_audio.md R353): it leaves every register as it was, and no register write can spell the sentinel. The
mirror is the model's representation (log 14). -/
def Obligations.VoiceResetKeepsRegisters : Prop :=
  (∀ (y : SynthState) (o : Nat), synthReg (synthResetVoices y) o = synthReg y o) ∧
  (∀ v : Byte, v.setWidth 9 ≠ Config.sentinel)

/-- The audio path end to end (45_audio.md R358): a bus write to a register of the write-only range, tagged WRITE, reaches the
synthesizer through one dispatch and one tick, and the status bytes the tick leaves are driven on the bus where they are
tagged readable. The list of results is the model's (log 9). -/
def Obligations.AudioWriteReachesTheSynthesizer : Prop :=
  ∀ (s : State) (addr : Addr) (v : Byte) (i : Nat), s.fatal = none → s.inv = true → s.cfg.wf = true → s.paused = false →
    s.irqPhase = .idle → s.irqEnabled = true → s.audPhase = .idle → s.audioArmed = true → s.R = s.W →
    s.afHead = s.afTail → s.cfg.audio.woLen ≤ 256 →
    s.cfg.audio.base.toNat ≤ addr.toNat → addr.toNat < s.cfg.audio.base.toNat + s.cfg.audio.woLen →
    (s.permAt addr).getLsbD 1 = true → i < s.cfg.audio.roLen → (s.permAt (statusAddr s.cfg i)).getLsbD 0 = true →
    ∃ t, execAll [.busWr addr v, .eventDispatch, .audioTick, .busRd (statusAddr s.cfg i)] s = .next t ∧
      t.synth = (Config.synthClock (Config.synthWrite s.synth (addr.toNat - s.cfg.audio.base.toNat) v)
        s.cfg.audio.cyclesPerSample).1 ∧
      t.results = (.bus, .driven (Config.synthStatus t.synth i)) :: (.irq, .handled addr .audio) :: s.results

/-! ## The whole machine -/

/-- Reset (70_reset_and_hazards.md R410, R411; 10_state.md R22-R42), under every configuration and every draw: the values the spec gives.
The drawn elements are the draws' own. -/
def Obligations.ResetValues : Prop :=
  ∀ (c : Cfg) (d : Draws), ∃ s, s = State.resetOf c d ∧ s.cfg = c ∧
    (∀ a, s.permAt a = 0b000#3) ∧ s.paused = false ∧ s.irqEnabled = false ∧ s.reveal = false ∧ s.audioArmed = false ∧
    s.ttLowerNext = false ∧ s.ttLowerCur = false ∧ s.W = 0#32 ∧ s.R = 0#32 ∧ s.rqHead = 0#32 ∧ s.rqTail = 0#32 ∧
    s.afHead = 0#32 ∧ s.afTail = 0#32 ∧ s.rowBase = 0#16 ∧ s.lineCount = 0#8 ∧ s.lastMode = none ∧ s.rendererCfg = .vdg ∧
    s.rendererFrame = .vdg ∧ s.fc = 0#32 ∧ s.synth = Config.synthReset ∧ s.writingSlot = none ∧ s.irqPhase = .idle ∧
    s.rendPhase = .idle ∧ s.quiet = true ∧ s.refused = false ∧ (c.check = none → s.fatal = none) ∧
    s.shadow = d.shadow ∧ s.evbuf = d.evbuf ∧ s.rqSlot = d.rqSlot ∧ s.pool = d.pool ∧ s.afSlot = d.afSlot ∧
    s.ttCrtcIdx = d.ttCrtcIdx ∧ s.ttStart = d.ttStart ∧ s.ttCursor = d.ttCursor ∧ s.dacLevel = d.dacLevel

/-- The configuration check (70_reset_and_hazards.md R411; 00_scope.md R8; 41_eventstream.md R160): it passes exactly the well-formed
configurations. A capacity that is no power of two is named first, EventStream before request queue before audio FIFO; when all
three hold, the first failing condition of R8, in its order, raises CONFIG with that condition's name. FLASH_PERIOD and
FLASH_BLANK are constants that meet their conditions, so no configuration raises those codes. The bound on C, the codes of the two
halves of the condition on FRAME_LINES, the reading of the range condition and the condition on AUDIO_WO_LEN, checked last, are
the model's (log 16, log 17); that LINE_PIXELS is not checked is too (log 27). -/
def Obligations.ConfigCheckOrder : Prop :=
  ∀ (c : Cfg) (d : Draws) (evs rq af pool frame cursor range : Prop),
    (evs ↔ ∃ k, k ≤ 31 ∧ c.evsCap = 2 ^ k) → (rq ↔ ∃ k, c.rqCap = 2 ^ k) → (af ↔ ∃ k, c.afifoCap = 2 ^ k) →
    (pool ↔ c.nPool ∈ [2, 3, 4]) → (frame ↔ c.frameLines % c.nPool = 0 ∧ c.nPool ≤ c.frameLines) →
    (cursor ↔ ∃ k, k ≤ 32 ∧ c.tt.cursorPeriod = 2 ^ k) →
    (range ↔ c.audio.base.toNat + c.audio.woLen + c.audio.roLen ≤ 65536) →
    ((State.resetOf c d).fatal = none ↔ evs ∧ rq ∧ af ∧ pool ∧ frame ∧ cursor ∧ range ∧ 1 ≤ c.audio.woLen) ∧
    (¬evs → (State.resetOf c d).fatal = some (.capacity .evs)) ∧
    (evs → ¬rq → (State.resetOf c d).fatal = some (.capacity .rq)) ∧
    (evs → rq → ¬af → (State.resetOf c d).fatal = some (.capacity .afifo)) ∧
    (evs → rq → af →
      (¬pool → (State.resetOf c d).fatal = some (.config .nPoolRange)) ∧
      (pool → c.frameLines % c.nPool ≠ 0 → (State.resetOf c d).fatal = some (.config .frameLinesMultiple)) ∧
      (pool → c.frameLines % c.nPool = 0 → c.frameLines < c.nPool →
        (State.resetOf c d).fatal = some (.config .frameLinesAtLeast)) ∧
      (pool → frame → ¬cursor → (State.resetOf c d).fatal = some (.config .cursorPeriodPowerOf2)) ∧
      (pool → frame → cursor → ¬range → (State.resetOf c d).fatal = some (.config .audioRangeInWindow)) ∧
      (pool → frame → cursor → range → c.audio.woLen = 0 →
        (State.resetOf c d).fatal = some (.config .audioWoLenPositive)))

/-- The invariant holds at reset: at this model's own reset (log 1, log 2), and under every configuration and every draw in
canonical form. -/
def Obligations.InvariantHoldsAtReset : Prop :=
  State.reset.inv = true ∧
  ∀ (c : Cfg) (d : Draws), (State.resetOf c d).canonical = true → (State.resetOf c d).inv = true

/-- Every step keeps the invariant: storage stays in canonical form, `writing_slot` follows the step in progress (10_state.md R30), a run of tag
writes stays inside the window (40_shadowbus.md R138), queues stay within their capacities, queued line tokens stay in the frame (30_encoding.md
R99), a step in progress writes its target line's slot (42_scanline_pipeline.md R197), and the line count stays below its mode's divisor (43_scanline_decode.md R236). -/
def Obligations.StepKeepsInvariant : Prop :=
  ∀ s t : State, s.inv = true → step s = .next t → t.inv = true

/-- Each piece of shared state has the writers 60_exceptions.md R395 names: a step that schedules an agent changes only what that agent
writes. -/
def Obligations.StepRespectsSingleWriters : Prop :=
  ∀ (s t : State) (a : Agent) (m : Move) (rest : List Slot), s.sched = ⟨a, m⟩ :: rest → step s = .next t →
    (a ∉ [.bus, .sw, .aud] → t.shadow = s.shadow) ∧
    (a ≠ .sw → t.perm = s.perm ∧ t.paused = s.paused) ∧
    (a ≠ .bus → t.W = s.W ∧ t.evbuf = s.evbuf) ∧
    (a ≠ .irq → t.R = s.R) ∧
    (a ≠ .vid → t.rqHead = s.rqHead ∧ t.rqSlot = s.rqSlot) ∧ (a ≠ .rend → t.rqTail = s.rqTail) ∧
    (a ≠ .rend → t.pool = s.pool) ∧
    (a ≠ .irq → t.afHead = s.afHead ∧ t.afSlot = s.afSlot) ∧ (a ≠ .aud → t.afTail = s.afTail) ∧
    (a ≠ .irq → t.ttCrtcIdx = s.ttCrtcIdx ∧ t.ttStart = s.ttStart ∧ t.ttCursor = s.ttCursor) ∧
    (a ≠ .sw → t.rendererCfg = s.rendererCfg ∧ t.reveal = s.reveal ∧ t.irqEnabled = s.irqEnabled) ∧
    (a ≠ .rend → t.fc = s.fc ∧ t.rendererFrame = s.rendererFrame) ∧
    t.cfg = s.cfg ∧ (s.refused = true → t.refused = true)
end

