-- ==== Sys2Proof/Laws/Decode.lean ====
section
/-! SUPPORT. The four fields of a word, and the slices of zero-extended operands: what a proof about encode and decode cites
instead of unfolding them. -/

namespace Sys2Proof

@[simp] theorem opField_word (op f : BitVec 8) (b : BitVec 16) (a : BitVec 32) : opField (word op f b a) = op := by
  unfold opField word
  rw [BitVec.extractLsb'_append_eq_of_le (by omega), BitVec.extractLsb'_append_eq_of_le (by omega),
    BitVec.extractLsb'_append_eq_of_le (by omega)]
  simp

@[simp] theorem fField_word (op f : BitVec 8) (b : BitVec 16) (a : BitVec 32) : fField (word op f b a) = f := by
  unfold fField word
  rw [BitVec.extractLsb'_append_eq_of_le (by omega), BitVec.extractLsb'_append_eq_of_le (by omega),
    BitVec.extractLsb'_append_eq_of_add_le (by omega)]
  simp

@[simp] theorem bField_word (op f : BitVec 8) (b : BitVec 16) (a : BitVec 32) : bField (word op f b a) = b := by
  unfold bField word
  rw [BitVec.extractLsb'_append_eq_of_le (by omega), BitVec.extractLsb'_append_eq_of_add_le (by omega)]
  simp

@[simp] theorem aField_word (op f : BitVec 8) (b : BitVec 16) (a : BitVec 32) : aField (word op f b a) = a := by
  unfold aField word
  rw [BitVec.extractLsb'_append_eq_of_add_le (by omega)]
  simp

/-- A word is its four fields. -/
theorem word_fields (w : Txn) : word (opField w) (fField w) (bField w) (aField w) = w := by
  apply BitVec.eq_of_getLsbD_eq
  intro i hi
  simp only [word, opField, fField, bField, aField, BitVec.getLsbD_append, BitVec.getLsbD_extractLsb']
  by_cases h1 : i < 32
  · simp [h1]
  · by_cases h2 : i - 32 < 16
    · simp [h1, h2, show 32 + (i - 32) = i by omega]
    · by_cases h3 : i - 32 - 16 < 8
      · simp [h1, h2, h3, show 48 + (i - 32 - 16) = i by omega]
      · have h4 : i - 32 - 16 - 8 < 8 := by omega
        simp [h1, h2, h3, h4, show 56 + (i - 32 - 16 - 8) = i by omega]

/-- The low slice of a zero-extended operand is the operand. -/
@[simp] theorem extractLsb'_setWidth_low {n : Nat} (m : Nat) (x : BitVec n) (h : n ≤ m) :
    (x.setWidth m).extractLsb' 0 n = x := by
  ext i hi
  have : i < m := by omega
  simp [this, BitVec.getLsbD_eq_getElem hi]

/-- Every slice above a zero-extended operand is zero. -/
theorem extractLsb'_setWidth_high {n : Nat} (m k l : Nat) (x : BitVec n) (h : n ≤ k) :
    (x.setWidth m).extractLsb' k l = 0#l := by
  ext i hi
  simp
  intro _
  exact BitVec.getLsbD_of_ge _ _ (by omega)

/-- Masking a word masks its fields. -/
theorem word_and (op f : BitVec 8) (b : BitVec 16) (a : BitVec 32) (op' f' : BitVec 8) (b' : BitVec 16)
    (a' : BitVec 32) :
    word op f b a &&& word op' f' b' a' = word (op &&& op') (f &&& f') (b &&& b') (a &&& a') := by
  apply BitVec.eq_of_getLsbD_eq
  intro i hi
  simp only [word, BitVec.getLsbD_and, BitVec.getLsbD_append]
  split
  · rfl
  · split
    · rfl
    · split <;> rfl

/-- A mask that is 0 where an operand stands clears it. -/
theorem setWidth_and_clear {n m : Nat} (x : BitVec n) (k : BitVec m) (h : ∀ i, i < n → k.getLsbD i = false) :
    x.setWidth m &&& k = 0#m := by
  apply BitVec.eq_of_getLsbD_eq
  intro i hi
  simp only [BitVec.getLsbD_and, BitVec.getLsbD_setWidth, BitVec.getLsbD_zero]
  by_cases h2 : i < n
  · simp [h i h2]
  · simp [BitVec.getLsbD_of_ge x i (by omega)]

end Sys2Proof
end

