-- ==== Sys2Proof/Laws/Sparse.lean ====
section
/-! SUPPORT. The laws of the indexed storage: a read after a write, and that every operation keeps the canonical form. The
reading laws hold of EVERY list, canonical or not, so no statement needs a premise for them. -/

namespace Sys2Proof

variable {α : Type}

/-! ## Reads after writes -/

theorem Sparse.get_erase (d : α) (m : List (Nat × α)) (a b : Nat) :
    Sparse.get d (Sparse.erase m a) b = if b = a then d else Sparse.get d m b := by
  induction m with
  | nil => simp [Sparse.erase, Sparse.get]
  | cons c m ih =>
    obtain ⟨k, w⟩ := c
    simp only [Sparse.erase] at ih
    by_cases hk : k = a
    · subst hk
      simp only [Sparse.erase, List.filter_cons, Sparse.get]
      by_cases hb : b = k
      · simpa [hb] using ih
      · have : ¬ k = b := fun h => hb h.symm
        simpa [hb, this] using ih
    · simp only [Sparse.erase, List.filter_cons, Sparse.get, bne_iff_ne, ne_eq, hk, not_false_eq_true, if_true, ih]
      by_cases hkb : k = b
      · have : ¬ b = a := fun h => hk (hkb.trans h)
        simp [hkb, this]
      · simp [hkb]

theorem Sparse.get_put (d : α) (m : List (Nat × α)) (a : Nat) (v : α) (b : Nat) :
    Sparse.get d (Sparse.put a v m) b = if b = a then v else Sparse.get d m b := by
  induction m with
  | nil => simp [Sparse.put, Sparse.get, eq_comm]
  | cons c m ih =>
    obtain ⟨k, w⟩ := c
    simp only [Sparse.put]
    split
    · by_cases hb : b = a
      · simp [Sparse.get, hb]
      · have : ¬ a = b := fun h => hb h.symm
        simp [Sparse.get, hb, this]
    · split
      · rename_i h1 h2
        subst h2
        by_cases hb : b = a
        · simp [Sparse.get, hb]
        · have : ¬ a = b := fun h => hb h.symm
          simp [Sparse.get, hb, this]
      · rename_i h1 h2
        simp only [Sparse.get, ih]
        by_cases hkb : k = b
        · have : ¬ b = a := fun h => h2 (h.symm.trans hkb.symm)
          simp [hkb, this]
        · simp [hkb]

/-- A read after a write: the index written reads the value, every other index reads as before. -/
theorem Sparse.get_set [DecidableEq α] (d : α) (m : List (Nat × α)) (a : Nat) (v : α) (b : Nat) :
    Sparse.get d (Sparse.set d m a v) b = if b = a then v else Sparse.get d m b := by
  unfold Sparse.set
  split
  · rename_i h
    rw [Sparse.get_erase, h]
  · exact Sparse.get_put d m a v b

@[simp] theorem Sparse.get_set_same [DecidableEq α] (d : α) (m : List (Nat × α)) (a : Nat) (v : α) :
    Sparse.get d (Sparse.set d m a v) a = v := by
  rw [Sparse.get_set, if_pos rfl]

theorem Sparse.get_set_other [DecidableEq α] (d : α) (m : List (Nat × α)) (a b : Nat) (v : α) (h : b ≠ a) :
    Sparse.get d (Sparse.set d m a v) b = Sparse.get d m b := by
  rw [Sparse.get_set, if_neg h]

/-- Reading a concatenation: the first part decides where it lists the index. -/
theorem Sparse.get_append (d : α) (m n : List (Nat × α)) (b : Nat) :
    Sparse.get d (m ++ n) b = if b ∈ m.map Prod.fst then Sparse.get d m b else Sparse.get d n b := by
  induction m with
  | nil => simp
  | cons c m ih =>
    obtain ⟨k, w⟩ := c
    by_cases hk : k = b
    · simp [Sparse.get, hk]
    · have hb : ¬ b = k := fun h => hk h.symm
      simp only [List.cons_append, Sparse.get, hk, if_false, ih, List.map_cons, List.mem_cons, hb, false_or]

theorem Sparse.get_of_not_mem (d : α) (m : List (Nat × α)) (b : Nat) (h : b ∉ m.map Prod.fst) :
    Sparse.get d m b = d := by
  have := Sparse.get_append d m [] b
  rw [if_neg h] at this
  simpa [Sparse.get] using this

theorem Sparse.get_filter_keys (d : α) (m : List (Nat × α)) (p : Nat → Bool) (b : Nat) :
    Sparse.get d (m.filter fun c => p c.1) b = if p b then Sparse.get d m b else d := by
  induction m with
  | nil => simp [Sparse.get]
  | cons c m ih =>
    obtain ⟨k, w⟩ := c
    by_cases hp : p k
    · simp only [List.filter_cons, hp, if_true, Sparse.get, ih]
      by_cases hk : k = b
      · subst hk; simp [hp]
      · simp [hk]
    · simp only [List.filter_cons, hp, Sparse.get]
      by_cases hk : k = b
      · subst hk; simpa [hp] using ih
      · simpa [hk] using ih

theorem Sparse.get_run [DecidableEq α] (d : α) (base : Nat) (vs : List α) (b : Nat) :
    Sparse.get d (Sparse.run d base vs) b = if base ≤ b then vs.getD (b - base) d else d := by
  induction vs generalizing base with
  | nil => simp [Sparse.run, Sparse.get]
  | cons v vs ih =>
    have step : Sparse.get d (Sparse.run d base (v :: vs)) b =
        if base = b then v else Sparse.get d (Sparse.run d (base + 1) vs) b := by
      simp only [Sparse.run]
      split
      · rename_i h
        split
        · rename_i h2
          rw [ih, if_neg (by omega), h]
        · rfl
      · simp [Sparse.get]
    rw [step, ih]
    by_cases h1 : base = b
    · subst h1; simp
    · by_cases h2 : base + 1 ≤ b
      · have h3 : base ≤ b := by omega
        have h4 : b - base = (b - (base + 1)) + 1 := by omega
        simp [h1, h2, h3, h4]
      · have h3 : ¬ base ≤ b := by omega
        simp [h1, h2, h3]

theorem Sparse.run_keys [DecidableEq α] (d : α) (base : Nat) (vs : List α) (b : Nat)
    (h : b ∈ (Sparse.run d base vs).map Prod.fst) : base ≤ b ∧ b < base + vs.length := by
  induction vs generalizing base with
  | nil => simp [Sparse.run] at h
  | cons v vs ih =>
    simp only [Sparse.run] at h
    simp only [List.length_cons]
    split at h
    · have := ih (base + 1) h; omega
    · simp only [List.map_cons, List.mem_cons] at h
      rcases h with h | h
      · omega
      · have := ih (base + 1) h; omega

/-- A read after a run of writes: the indexes of the run read its values, every other index reads as before. -/
theorem Sparse.get_splice [DecidableEq α] (d : α) (m : List (Nat × α)) (base : Nat) (vs : List α) (b : Nat) :
    Sparse.get d (Sparse.splice d m base vs) b =
      if base ≤ b ∧ b < base + vs.length then vs.getD (b - base) d else Sparse.get d m b := by
  unfold Sparse.splice
  have hlow := Sparse.get_filter_keys d m (fun k => decide (k < base)) b
  have hhigh := Sparse.get_filter_keys d m (fun k => decide (base + vs.length ≤ k)) b
  rw [Sparse.get_append, Sparse.get_append]
  have hkeys : ∀ p : Nat → Bool, b ∈ (m.filter fun c => p c.1).map Prod.fst → p b = true := by
    intro p hb
    obtain ⟨c, hc, rfl⟩ := List.mem_map.1 hb
    simpa using (List.mem_filter.1 hc).2
  by_cases h1 : b < base
  · have hr : b ∉ (Sparse.run d base vs).map Prod.fst := fun h => by
      have := Sparse.run_keys d base vs b h; omega
    have hge : ¬ (base + vs.length ≤ b) := by omega
    have e1 : Sparse.get d (m.filter fun c => decide (c.1 < base)) b = Sparse.get d m b := by
      rw [hlow]; simp [h1]
    have e2 : Sparse.get d (m.filter fun c => decide (base + vs.length ≤ c.1)) b = d := by
      rw [hhigh]; simp [hge]
    have hno : ¬ (base ≤ b ∧ b < base + vs.length) := by omega
    rw [if_neg hno]
    by_cases hm : b ∈ (m.filter fun c => decide (c.1 < base)).map Prod.fst
    · rw [if_pos (by rw [List.map_append]; exact List.mem_append_left _ hm), if_pos hm, e1]
    · rw [if_neg (by rw [List.map_append]; simp only [List.mem_append, not_or]; exact ⟨hm, hr⟩), e2, ← e1,
        Sparse.get_of_not_mem d _ b hm]
  · have hl : b ∉ (m.filter fun c => decide (c.1 < base)).map Prod.fst := fun h => by
      have := hkeys (fun k => decide (k < base)) h
      simp at this; omega
    by_cases h2 : b < base + vs.length
    · rw [if_pos (show base ≤ b ∧ b < base + vs.length by omega)]
      have er : Sparse.get d (Sparse.run d base vs) b = vs.getD (b - base) d := by
        rw [Sparse.get_run, if_pos (by omega)]
      by_cases hm : b ∈ (Sparse.run d base vs).map Prod.fst
      · rw [if_pos (by rw [List.map_append]; exact List.mem_append_right _ hm), if_neg hl, er]
      · rw [if_neg (by rw [List.map_append]; simp only [List.mem_append, not_or]; exact ⟨hl, hm⟩), hhigh, ← er,
          Sparse.get_of_not_mem d _ b hm]
        simp; omega
    · rw [if_neg (show ¬ (base ≤ b ∧ b < base + vs.length) by omega)]
      have hr : b ∉ (Sparse.run d base vs).map Prod.fst := fun h => by
        have := Sparse.run_keys d base vs b h; omega
      rw [if_neg (by rw [List.map_append]; simp only [List.mem_append, not_or]; exact ⟨hl, hr⟩), hhigh]
      simp; omega

/-! ## The canonical form -/

theorem Sparse.wfFrom_mono [DecidableEq α] {d : α} {lo lo' : Nat} {m : List (Nat × α)} (h : lo' ≤ lo)
    (hm : Sparse.wfFrom d lo m = true) : Sparse.wfFrom d lo' m = true := by
  cases m with
  | nil => rfl
  | cons c m =>
    obtain ⟨k, v⟩ := c
    simp only [Sparse.wfFrom, Bool.and_eq_true, decide_eq_true_eq] at hm ⊢
    exact ⟨⟨by omega, hm.1.2⟩, hm.2⟩

theorem Sparse.wfFrom_filter [DecidableEq α] {d : α} {lo : Nat} {m : List (Nat × α)} (p : Nat × α → Bool)
    (hm : Sparse.wfFrom d lo m = true) : Sparse.wfFrom d lo (m.filter p) = true := by
  induction m generalizing lo with
  | nil => rfl
  | cons c m ih =>
    obtain ⟨k, v⟩ := c
    simp only [Sparse.wfFrom, Bool.and_eq_true, decide_eq_true_eq] at hm
    simp only [List.filter_cons]
    split
    · simp only [Sparse.wfFrom, Bool.and_eq_true, decide_eq_true_eq]
      exact ⟨hm.1, ih hm.2⟩
    · exact Sparse.wfFrom_mono (by omega) (ih hm.2)

theorem Sparse.wfFrom_put [DecidableEq α] {d : α} {lo a : Nat} {v : α} {m : List (Nat × α)} (ha : lo ≤ a) (hv : v ≠ d)
    (hm : Sparse.wfFrom d lo m = true) : Sparse.wfFrom d lo (Sparse.put a v m) = true := by
  induction m generalizing lo with
  | nil => simp [Sparse.put, Sparse.wfFrom, ha, hv]
  | cons c m ih =>
    obtain ⟨k, w⟩ := c
    simp only [Sparse.wfFrom, Bool.and_eq_true, decide_eq_true_eq] at hm
    simp only [Sparse.put]
    split
    · rename_i h
      simp only [Sparse.wfFrom, Bool.and_eq_true, decide_eq_true_eq]
      exact ⟨⟨ha, hv⟩, ⟨by omega, hm.1.2⟩, hm.2⟩
    · split
      · rename_i h1 h2
        subst h2
        simp only [Sparse.wfFrom, Bool.and_eq_true, decide_eq_true_eq]
        exact ⟨⟨ha, hv⟩, hm.2⟩
      · rename_i h1 h2
        simp only [Sparse.wfFrom, Bool.and_eq_true, decide_eq_true_eq]
        exact ⟨hm.1, ih (by omega) hm.2⟩

theorem Sparse.wfFrom_set [DecidableEq α] {d : α} {m : List (Nat × α)} (a : Nat) (v : α)
    (hm : Sparse.wfFrom d 0 m = true) : Sparse.wfFrom d 0 (Sparse.set d m a v) = true := by
  unfold Sparse.set
  split
  · exact Sparse.wfFrom_filter _ hm
  · exact Sparse.wfFrom_put (by omega) ‹_› hm

theorem Sparse.wfFrom_append [DecidableEq α] {d : α} {lo mid : Nat} {m n : List (Nat × α)} (h : lo ≤ mid)
    (hm : Sparse.wfFrom d lo m = true) (hk : ∀ c ∈ m, c.1 < mid) (hn : Sparse.wfFrom d mid n = true) :
    Sparse.wfFrom d lo (m ++ n) = true := by
  induction m generalizing lo with
  | nil => exact Sparse.wfFrom_mono h hn
  | cons c m ih =>
    obtain ⟨k, v⟩ := c
    simp only [Sparse.wfFrom, Bool.and_eq_true, decide_eq_true_eq] at hm
    simp only [List.cons_append, Sparse.wfFrom, Bool.and_eq_true, decide_eq_true_eq]
    have hkm : k < mid := hk (k, v) (by simp)
    exact ⟨hm.1, ih (by omega) hm.2 fun c hc => hk c (by simp [hc])⟩

theorem Sparse.wfFrom_run [DecidableEq α] (d : α) (base : Nat) (vs : List α) :
    Sparse.wfFrom d base (Sparse.run d base vs) = true := by
  induction vs generalizing base with
  | nil => rfl
  | cons v vs ih =>
    simp only [Sparse.run]
    split
    · exact Sparse.wfFrom_mono (by omega) (ih (base + 1))
    · simp only [Sparse.wfFrom, Bool.and_eq_true, decide_eq_true_eq]
      exact ⟨⟨by omega, ‹_›⟩, ih (base + 1)⟩

theorem Sparse.wfFrom_filter_ge [DecidableEq α] {d : α} {lo : Nat} {m : List (Nat × α)} (n : Nat)
    (hm : Sparse.wfFrom d lo m = true) : Sparse.wfFrom d n (m.filter fun c => decide (n ≤ c.1)) = true := by
  induction m generalizing lo with
  | nil => rfl
  | cons c m ih =>
    obtain ⟨k, v⟩ := c
    simp only [Sparse.wfFrom, Bool.and_eq_true, decide_eq_true_eq] at hm
    simp only [List.filter_cons]
    split
    · rename_i h
      simp only [decide_eq_true_eq] at h
      simp only [Sparse.wfFrom, Bool.and_eq_true, decide_eq_true_eq]
      exact ⟨⟨h, hm.1.2⟩, Sparse.wfFrom_filter _ hm.2⟩
    · exact ih hm.2

theorem Sparse.wfFrom_splice [DecidableEq α] {d : α} {m : List (Nat × α)} (base : Nat) (vs : List α)
    (hm : Sparse.wfFrom d 0 m = true) : Sparse.wfFrom d 0 (Sparse.splice d m base vs) = true := by
  unfold Sparse.splice
  refine Sparse.wfFrom_append (mid := base + vs.length) (by omega) ?_ ?_ (Sparse.wfFrom_filter_ge _ hm)
  · refine Sparse.wfFrom_append (mid := base) (by omega) (Sparse.wfFrom_filter _ hm) ?_ (Sparse.wfFrom_run d base vs)
    intro c hc
    simpa using (List.mem_filter.1 hc).2
  · intro c hc
    rcases List.mem_append.1 hc with hc | hc
    · have := (List.mem_filter.1 hc).2
      simp at this; omega
    · exact (Sparse.run_keys d base vs c.1 (List.mem_map_of_mem hc)).2

theorem Sparse.mem_put {a : Nat} {v : α} {m : List (Nat × α)} {c : Nat × α} (h : c ∈ Sparse.put a v m) :
    c = (a, v) ∨ c ∈ m := by
  induction m with
  | nil => simpa [Sparse.put] using h
  | cons e m ih =>
    obtain ⟨k, w⟩ := e
    simp only [Sparse.put] at h
    split at h
    · simpa using h
    · split at h
      · simp only [List.mem_cons] at h ⊢
        tauto
      · simp only [List.mem_cons] at h ⊢
        rcases h with h | h
        · tauto
        · have := ih h; tauto

theorem Sparse.wf_set [DecidableEq α] {d : α} {bound : Nat} {m : List (Nat × α)} (a : Nat) (v : α) (ha : a < bound)
    (hm : Sparse.wf d bound m = true) : Sparse.wf d bound (Sparse.set d m a v) = true := by
  simp only [Sparse.wf, Bool.and_eq_true, List.all_eq_true, decide_eq_true_eq] at hm ⊢
  refine ⟨Sparse.wfFrom_set a v hm.1, fun c hc => ?_⟩
  unfold Sparse.set at hc
  split at hc
  · exact hm.2 c (List.mem_filter.1 hc).1
  · rcases Sparse.mem_put hc with rfl | hc
    · exact ha
    · exact hm.2 c hc

theorem Sparse.wf_splice [DecidableEq α] {d : α} {bound : Nat} {m : List (Nat × α)} (base : Nat) (vs : List α)
    (hb : base + vs.length ≤ bound) (hm : Sparse.wf d bound m = true) :
    Sparse.wf d bound (Sparse.splice d m base vs) = true := by
  simp only [Sparse.wf, Bool.and_eq_true, List.all_eq_true, decide_eq_true_eq] at hm ⊢
  refine ⟨Sparse.wfFrom_splice base vs hm.1, fun c hc => ?_⟩
  unfold Sparse.splice at hc
  rcases List.mem_append.1 hc with hc | hc
  · rcases List.mem_append.1 hc with hc | hc
    · exact hm.2 c (List.mem_filter.1 hc).1
    · have := (Sparse.run_keys d base vs c.1 (List.mem_map_of_mem hc)).2
      omega
  · exact hm.2 c (List.mem_filter.1 hc).1

theorem Sparse.get_below [DecidableEq α] {d : α} {lo : Nat} {m : List (Nat × α)} (hm : Sparse.wfFrom d lo m = true)
    {b : Nat} (hb : b < lo) : Sparse.get d m b = d := by
  induction m generalizing lo with
  | nil => rfl
  | cons c m ih =>
    obtain ⟨k, v⟩ := c
    simp only [Sparse.wfFrom, Bool.and_eq_true, decide_eq_true_eq] at hm
    simp only [Sparse.get]
    rw [if_neg (by omega)]
    exact ih hm.2 (by omega)

/-- Canonical storages with equal contents are equal. -/
theorem Sparse.ext [DecidableEq α] {d : α} {lo : Nat} {m n : List (Nat × α)} (hm : Sparse.wfFrom d lo m = true)
    (hn : Sparse.wfFrom d lo n = true) (h : ∀ b, Sparse.get d m b = Sparse.get d n b) : m = n := by
  induction m generalizing lo n with
  | nil =>
    cases n with
    | nil => rfl
    | cons e n =>
      obtain ⟨k, v⟩ := e
      simp only [Sparse.wfFrom, Bool.and_eq_true, decide_eq_true_eq] at hn
      have := h k
      simp only [Sparse.get, if_true] at this
      exact absurd this.symm hn.1.2
  | cons c m ih =>
    obtain ⟨k, v⟩ := c
    simp only [Sparse.wfFrom, Bool.and_eq_true, decide_eq_true_eq] at hm
    cases n with
    | nil =>
      have := h k
      simp only [Sparse.get, if_true] at this
      exact absurd this hm.1.2
    | cons e n =>
      obtain ⟨l, w⟩ := e
      simp only [Sparse.wfFrom, Bool.and_eq_true, decide_eq_true_eq] at hn
      have hkl : k = l := by
        rcases Nat.lt_trichotomy k l with hlt | heq | hgt
        · have := h k
          simp only [Sparse.get, if_true] at this
          rw [if_neg (by omega), Sparse.get_below hn.2 (by omega)] at this
          exact absurd this hm.1.2
        · exact heq
        · have := h l
          simp only [Sparse.get, if_true] at this
          rw [if_neg (by omega), Sparse.get_below hm.2 (by omega)] at this
          exact absurd this.symm hn.1.2
      subst hkl
      have hvw : v = w := by
        have := h k
        simpa [Sparse.get] using this
      subst hvw
      congr 1
      refine ih hm.2 hn.2 fun b => ?_
      by_cases hb : k = b
      · subst hb
        rw [Sparse.get_below hm.2 (by omega), Sparse.get_below hn.2 (by omega)]
      · have := h b
        simpa [Sparse.get, hb] using this

/-- Writing the first value of a run and then the rest is writing the run: a run of writes is its single writes in
ascending order. -/
theorem Sparse.splice_cons [DecidableEq α] {d : α} {m : List (Nat × α)} (hm : Sparse.wfFrom d 0 m = true) (base : Nat)
    (v : α) (vs : List α) :
    Sparse.splice d (Sparse.set d m base v) (base + 1) vs = Sparse.splice d m base (v :: vs) := by
  refine Sparse.ext (lo := 0) (Sparse.wfFrom_splice _ _ (Sparse.wfFrom_set _ _ hm)) (Sparse.wfFrom_splice _ _ hm) ?_
  intro b
  rw [Sparse.get_splice, Sparse.get_splice, Sparse.get_set]
  simp only [List.length_cons]
  by_cases h1 : b = base
  · subst h1
    rw [if_neg (by omega), if_pos rfl, if_pos (by omega)]
    simp
  · by_cases h2 : base + 1 ≤ b ∧ b < base + 1 + vs.length
    · rw [if_pos h2, if_pos (by omega)]
      have : b - base = (b - (base + 1)) + 1 := by omega
      simp [this]
    · rw [if_neg h2, if_neg h1, if_neg (by omega)]

/-- A run of no values writes nothing. -/
theorem Sparse.splice_nil [DecidableEq α] {d : α} {m : List (Nat × α)} (hm : Sparse.wfFrom d 0 m = true) (base : Nat) :
    Sparse.splice d m base [] = m := by
  refine Sparse.ext (lo := 0) (Sparse.wfFrom_splice _ _ hm) hm fun b => ?_
  rw [Sparse.get_splice, if_neg (by simp)]

/-! ## The shadow memory -/

/-- A write of one cell keeps the shadow memory canonical. -/
theorem Memory.wf_set {m : Memory} (a : Addr) (v : Byte) (hm : m.wf = true) :
    Memory.wf (Sparse.set Memory.fill m a.toNat v) = true :=
  Sparse.wf_set _ _ a.isLt hm

/-- The empty memory, which reset has, is canonical. -/
theorem Memory.wf_nil : Memory.wf [] = true := rfl

end Sys2Proof
end

