-- ==== Sys2Proof/Laws/State.lean ====
section
/-! SUPPORT. The state's updates field by field: for each named update of Machine/Ops.lean, what every field of the state is
after it. All are true by unfolding one update, so that no later proof unfolds a record update. -/

namespace Sys2Proof.Machine

variable (s : State)

/-! ## `State.writeByte` -/

@[simp] theorem State.writeByte_cfg (a : Addr) (v : Byte) : (s.writeByte a v).cfg = s.cfg := rfl
@[simp] theorem State.writeByte_shadow (a : Addr) (v : Byte) : (s.writeByte a v).shadow = Sparse.set Memory.fill s.shadow a.toNat v := rfl
@[simp] theorem State.writeByte_perm (a : Addr) (v : Byte) : (s.writeByte a v).perm = s.perm := rfl
@[simp] theorem State.writeByte_paused (a : Addr) (v : Byte) : (s.writeByte a v).paused = s.paused := rfl
@[simp] theorem State.writeByte_W (a : Addr) (v : Byte) : (s.writeByte a v).W = s.W := rfl
@[simp] theorem State.writeByte_R (a : Addr) (v : Byte) : (s.writeByte a v).R = s.R := rfl
@[simp] theorem State.writeByte_evbuf (a : Addr) (v : Byte) : (s.writeByte a v).evbuf = s.evbuf := rfl
@[simp] theorem State.writeByte_irqEnabled (a : Addr) (v : Byte) : (s.writeByte a v).irqEnabled = s.irqEnabled := rfl
@[simp] theorem State.writeByte_rqSlot (a : Addr) (v : Byte) : (s.writeByte a v).rqSlot = s.rqSlot := rfl
@[simp] theorem State.writeByte_rqHead (a : Addr) (v : Byte) : (s.writeByte a v).rqHead = s.rqHead := rfl
@[simp] theorem State.writeByte_rqTail (a : Addr) (v : Byte) : (s.writeByte a v).rqTail = s.rqTail := rfl
@[simp] theorem State.writeByte_pool (a : Addr) (v : Byte) : (s.writeByte a v).pool = s.pool := rfl
@[simp] theorem State.writeByte_writingSlot (a : Addr) (v : Byte) : (s.writeByte a v).writingSlot = s.writingSlot := rfl
@[simp] theorem State.writeByte_rowBase (a : Addr) (v : Byte) : (s.writeByte a v).rowBase = s.rowBase := rfl
@[simp] theorem State.writeByte_lineCount (a : Addr) (v : Byte) : (s.writeByte a v).lineCount = s.lineCount := rfl
@[simp] theorem State.writeByte_lastMode (a : Addr) (v : Byte) : (s.writeByte a v).lastMode = s.lastMode := rfl
@[simp] theorem State.writeByte_rendererCfg (a : Addr) (v : Byte) : (s.writeByte a v).rendererCfg = s.rendererCfg := rfl
@[simp] theorem State.writeByte_rendererFrame (a : Addr) (v : Byte) : (s.writeByte a v).rendererFrame = s.rendererFrame := rfl
@[simp] theorem State.writeByte_fc (a : Addr) (v : Byte) : (s.writeByte a v).fc = s.fc := rfl
@[simp] theorem State.writeByte_reveal (a : Addr) (v : Byte) : (s.writeByte a v).reveal = s.reveal := rfl
@[simp] theorem State.writeByte_ttLowerNext (a : Addr) (v : Byte) : (s.writeByte a v).ttLowerNext = s.ttLowerNext := rfl
@[simp] theorem State.writeByte_ttLowerCur (a : Addr) (v : Byte) : (s.writeByte a v).ttLowerCur = s.ttLowerCur := rfl
@[simp] theorem State.writeByte_ttCrtcIdx (a : Addr) (v : Byte) : (s.writeByte a v).ttCrtcIdx = s.ttCrtcIdx := rfl
@[simp] theorem State.writeByte_ttStart (a : Addr) (v : Byte) : (s.writeByte a v).ttStart = s.ttStart := rfl
@[simp] theorem State.writeByte_ttCursor (a : Addr) (v : Byte) : (s.writeByte a v).ttCursor = s.ttCursor := rfl
@[simp] theorem State.writeByte_afSlot (a : Addr) (v : Byte) : (s.writeByte a v).afSlot = s.afSlot := rfl
@[simp] theorem State.writeByte_afHead (a : Addr) (v : Byte) : (s.writeByte a v).afHead = s.afHead := rfl
@[simp] theorem State.writeByte_afTail (a : Addr) (v : Byte) : (s.writeByte a v).afTail = s.afTail := rfl
@[simp] theorem State.writeByte_synth (a : Addr) (v : Byte) : (s.writeByte a v).synth = s.synth := rfl
@[simp] theorem State.writeByte_audioArmed (a : Addr) (v : Byte) : (s.writeByte a v).audioArmed = s.audioArmed := rfl
@[simp] theorem State.writeByte_dacLevel (a : Addr) (v : Byte) : (s.writeByte a v).dacLevel = s.dacLevel := rfl
@[simp] theorem State.writeByte_fatal (a : Addr) (v : Byte) : (s.writeByte a v).fatal = s.fatal := rfl
@[simp] theorem State.writeByte_refused (a : Addr) (v : Byte) : (s.writeByte a v).refused = s.refused := rfl
@[simp] theorem State.writeByte_irqPhase (a : Addr) (v : Byte) : (s.writeByte a v).irqPhase = s.irqPhase := rfl
@[simp] theorem State.writeByte_rendPhase (a : Addr) (v : Byte) : (s.writeByte a v).rendPhase = s.rendPhase := rfl
@[simp] theorem State.writeByte_swPhase (a : Addr) (v : Byte) : (s.writeByte a v).swPhase = s.swPhase := rfl
@[simp] theorem State.writeByte_audPhase (a : Addr) (v : Byte) : (s.writeByte a v).audPhase = s.audPhase := rfl
@[simp] theorem State.writeByte_irqService (a : Addr) (v : Byte) : (s.writeByte a v).irqService = s.irqService := rfl
@[simp] theorem State.writeByte_progs (a : Addr) (v : Byte) : (s.writeByte a v).progs = s.progs := rfl
@[simp] theorem State.writeByte_sched (a : Addr) (v : Byte) : (s.writeByte a v).sched = s.sched := rfl
@[simp] theorem State.writeByte_results (a : Addr) (v : Byte) : (s.writeByte a v).results = s.results := rfl
@[simp] theorem State.writeByte_dacLog (a : Addr) (v : Byte) : (s.writeByte a v).dacLog = s.dacLog := rfl

/-! ## `State.setTag` -/

@[simp] theorem State.setTag_cfg (f : Perm) (a : Nat) : (s.setTag f a).cfg = s.cfg := rfl
@[simp] theorem State.setTag_shadow (f : Perm) (a : Nat) : (s.setTag f a).shadow = s.shadow := rfl
@[simp] theorem State.setTag_perm (f : Perm) (a : Nat) : (s.setTag f a).perm = Sparse.set Perm.tagNone s.perm a f := rfl
@[simp] theorem State.setTag_paused (f : Perm) (a : Nat) : (s.setTag f a).paused = s.paused := rfl
@[simp] theorem State.setTag_W (f : Perm) (a : Nat) : (s.setTag f a).W = s.W := rfl
@[simp] theorem State.setTag_R (f : Perm) (a : Nat) : (s.setTag f a).R = s.R := rfl
@[simp] theorem State.setTag_evbuf (f : Perm) (a : Nat) : (s.setTag f a).evbuf = s.evbuf := rfl
@[simp] theorem State.setTag_irqEnabled (f : Perm) (a : Nat) : (s.setTag f a).irqEnabled = s.irqEnabled := rfl
@[simp] theorem State.setTag_rqSlot (f : Perm) (a : Nat) : (s.setTag f a).rqSlot = s.rqSlot := rfl
@[simp] theorem State.setTag_rqHead (f : Perm) (a : Nat) : (s.setTag f a).rqHead = s.rqHead := rfl
@[simp] theorem State.setTag_rqTail (f : Perm) (a : Nat) : (s.setTag f a).rqTail = s.rqTail := rfl
@[simp] theorem State.setTag_pool (f : Perm) (a : Nat) : (s.setTag f a).pool = s.pool := rfl
@[simp] theorem State.setTag_writingSlot (f : Perm) (a : Nat) : (s.setTag f a).writingSlot = s.writingSlot := rfl
@[simp] theorem State.setTag_rowBase (f : Perm) (a : Nat) : (s.setTag f a).rowBase = s.rowBase := rfl
@[simp] theorem State.setTag_lineCount (f : Perm) (a : Nat) : (s.setTag f a).lineCount = s.lineCount := rfl
@[simp] theorem State.setTag_lastMode (f : Perm) (a : Nat) : (s.setTag f a).lastMode = s.lastMode := rfl
@[simp] theorem State.setTag_rendererCfg (f : Perm) (a : Nat) : (s.setTag f a).rendererCfg = s.rendererCfg := rfl
@[simp] theorem State.setTag_rendererFrame (f : Perm) (a : Nat) : (s.setTag f a).rendererFrame = s.rendererFrame := rfl
@[simp] theorem State.setTag_fc (f : Perm) (a : Nat) : (s.setTag f a).fc = s.fc := rfl
@[simp] theorem State.setTag_reveal (f : Perm) (a : Nat) : (s.setTag f a).reveal = s.reveal := rfl
@[simp] theorem State.setTag_ttLowerNext (f : Perm) (a : Nat) : (s.setTag f a).ttLowerNext = s.ttLowerNext := rfl
@[simp] theorem State.setTag_ttLowerCur (f : Perm) (a : Nat) : (s.setTag f a).ttLowerCur = s.ttLowerCur := rfl
@[simp] theorem State.setTag_ttCrtcIdx (f : Perm) (a : Nat) : (s.setTag f a).ttCrtcIdx = s.ttCrtcIdx := rfl
@[simp] theorem State.setTag_ttStart (f : Perm) (a : Nat) : (s.setTag f a).ttStart = s.ttStart := rfl
@[simp] theorem State.setTag_ttCursor (f : Perm) (a : Nat) : (s.setTag f a).ttCursor = s.ttCursor := rfl
@[simp] theorem State.setTag_afSlot (f : Perm) (a : Nat) : (s.setTag f a).afSlot = s.afSlot := rfl
@[simp] theorem State.setTag_afHead (f : Perm) (a : Nat) : (s.setTag f a).afHead = s.afHead := rfl
@[simp] theorem State.setTag_afTail (f : Perm) (a : Nat) : (s.setTag f a).afTail = s.afTail := rfl
@[simp] theorem State.setTag_synth (f : Perm) (a : Nat) : (s.setTag f a).synth = s.synth := rfl
@[simp] theorem State.setTag_audioArmed (f : Perm) (a : Nat) : (s.setTag f a).audioArmed = s.audioArmed := rfl
@[simp] theorem State.setTag_dacLevel (f : Perm) (a : Nat) : (s.setTag f a).dacLevel = s.dacLevel := rfl
@[simp] theorem State.setTag_fatal (f : Perm) (a : Nat) : (s.setTag f a).fatal = s.fatal := rfl
@[simp] theorem State.setTag_refused (f : Perm) (a : Nat) : (s.setTag f a).refused = s.refused := rfl
@[simp] theorem State.setTag_irqPhase (f : Perm) (a : Nat) : (s.setTag f a).irqPhase = s.irqPhase := rfl
@[simp] theorem State.setTag_rendPhase (f : Perm) (a : Nat) : (s.setTag f a).rendPhase = s.rendPhase := rfl
@[simp] theorem State.setTag_swPhase (f : Perm) (a : Nat) : (s.setTag f a).swPhase = s.swPhase := rfl
@[simp] theorem State.setTag_audPhase (f : Perm) (a : Nat) : (s.setTag f a).audPhase = s.audPhase := rfl
@[simp] theorem State.setTag_irqService (f : Perm) (a : Nat) : (s.setTag f a).irqService = s.irqService := rfl
@[simp] theorem State.setTag_progs (f : Perm) (a : Nat) : (s.setTag f a).progs = s.progs := rfl
@[simp] theorem State.setTag_sched (f : Perm) (a : Nat) : (s.setTag f a).sched = s.sched := rfl
@[simp] theorem State.setTag_results (f : Perm) (a : Nat) : (s.setTag f a).results = s.results := rfl
@[simp] theorem State.setTag_dacLog (f : Perm) (a : Nat) : (s.setTag f a).dacLog = s.dacLog := rfl

/-! ## `State.setTags` -/

@[simp] theorem State.setTags_cfg (f : Perm) (a n : Nat) : (s.setTags f a n).cfg = s.cfg := rfl
@[simp] theorem State.setTags_shadow (f : Perm) (a n : Nat) : (s.setTags f a n).shadow = s.shadow := rfl
@[simp] theorem State.setTags_perm (f : Perm) (a n : Nat) : (s.setTags f a n).perm = Sparse.splice Perm.tagNone s.perm a (List.replicate n f) := rfl
@[simp] theorem State.setTags_paused (f : Perm) (a n : Nat) : (s.setTags f a n).paused = s.paused := rfl
@[simp] theorem State.setTags_W (f : Perm) (a n : Nat) : (s.setTags f a n).W = s.W := rfl
@[simp] theorem State.setTags_R (f : Perm) (a n : Nat) : (s.setTags f a n).R = s.R := rfl
@[simp] theorem State.setTags_evbuf (f : Perm) (a n : Nat) : (s.setTags f a n).evbuf = s.evbuf := rfl
@[simp] theorem State.setTags_irqEnabled (f : Perm) (a n : Nat) : (s.setTags f a n).irqEnabled = s.irqEnabled := rfl
@[simp] theorem State.setTags_rqSlot (f : Perm) (a n : Nat) : (s.setTags f a n).rqSlot = s.rqSlot := rfl
@[simp] theorem State.setTags_rqHead (f : Perm) (a n : Nat) : (s.setTags f a n).rqHead = s.rqHead := rfl
@[simp] theorem State.setTags_rqTail (f : Perm) (a n : Nat) : (s.setTags f a n).rqTail = s.rqTail := rfl
@[simp] theorem State.setTags_pool (f : Perm) (a n : Nat) : (s.setTags f a n).pool = s.pool := rfl
@[simp] theorem State.setTags_writingSlot (f : Perm) (a n : Nat) : (s.setTags f a n).writingSlot = s.writingSlot := rfl
@[simp] theorem State.setTags_rowBase (f : Perm) (a n : Nat) : (s.setTags f a n).rowBase = s.rowBase := rfl
@[simp] theorem State.setTags_lineCount (f : Perm) (a n : Nat) : (s.setTags f a n).lineCount = s.lineCount := rfl
@[simp] theorem State.setTags_lastMode (f : Perm) (a n : Nat) : (s.setTags f a n).lastMode = s.lastMode := rfl
@[simp] theorem State.setTags_rendererCfg (f : Perm) (a n : Nat) : (s.setTags f a n).rendererCfg = s.rendererCfg := rfl
@[simp] theorem State.setTags_rendererFrame (f : Perm) (a n : Nat) : (s.setTags f a n).rendererFrame = s.rendererFrame := rfl
@[simp] theorem State.setTags_fc (f : Perm) (a n : Nat) : (s.setTags f a n).fc = s.fc := rfl
@[simp] theorem State.setTags_reveal (f : Perm) (a n : Nat) : (s.setTags f a n).reveal = s.reveal := rfl
@[simp] theorem State.setTags_ttLowerNext (f : Perm) (a n : Nat) : (s.setTags f a n).ttLowerNext = s.ttLowerNext := rfl
@[simp] theorem State.setTags_ttLowerCur (f : Perm) (a n : Nat) : (s.setTags f a n).ttLowerCur = s.ttLowerCur := rfl
@[simp] theorem State.setTags_ttCrtcIdx (f : Perm) (a n : Nat) : (s.setTags f a n).ttCrtcIdx = s.ttCrtcIdx := rfl
@[simp] theorem State.setTags_ttStart (f : Perm) (a n : Nat) : (s.setTags f a n).ttStart = s.ttStart := rfl
@[simp] theorem State.setTags_ttCursor (f : Perm) (a n : Nat) : (s.setTags f a n).ttCursor = s.ttCursor := rfl
@[simp] theorem State.setTags_afSlot (f : Perm) (a n : Nat) : (s.setTags f a n).afSlot = s.afSlot := rfl
@[simp] theorem State.setTags_afHead (f : Perm) (a n : Nat) : (s.setTags f a n).afHead = s.afHead := rfl
@[simp] theorem State.setTags_afTail (f : Perm) (a n : Nat) : (s.setTags f a n).afTail = s.afTail := rfl
@[simp] theorem State.setTags_synth (f : Perm) (a n : Nat) : (s.setTags f a n).synth = s.synth := rfl
@[simp] theorem State.setTags_audioArmed (f : Perm) (a n : Nat) : (s.setTags f a n).audioArmed = s.audioArmed := rfl
@[simp] theorem State.setTags_dacLevel (f : Perm) (a n : Nat) : (s.setTags f a n).dacLevel = s.dacLevel := rfl
@[simp] theorem State.setTags_fatal (f : Perm) (a n : Nat) : (s.setTags f a n).fatal = s.fatal := rfl
@[simp] theorem State.setTags_refused (f : Perm) (a n : Nat) : (s.setTags f a n).refused = s.refused := rfl
@[simp] theorem State.setTags_irqPhase (f : Perm) (a n : Nat) : (s.setTags f a n).irqPhase = s.irqPhase := rfl
@[simp] theorem State.setTags_rendPhase (f : Perm) (a n : Nat) : (s.setTags f a n).rendPhase = s.rendPhase := rfl
@[simp] theorem State.setTags_swPhase (f : Perm) (a n : Nat) : (s.setTags f a n).swPhase = s.swPhase := rfl
@[simp] theorem State.setTags_audPhase (f : Perm) (a n : Nat) : (s.setTags f a n).audPhase = s.audPhase := rfl
@[simp] theorem State.setTags_irqService (f : Perm) (a n : Nat) : (s.setTags f a n).irqService = s.irqService := rfl
@[simp] theorem State.setTags_progs (f : Perm) (a n : Nat) : (s.setTags f a n).progs = s.progs := rfl
@[simp] theorem State.setTags_sched (f : Perm) (a n : Nat) : (s.setTags f a n).sched = s.sched := rfl
@[simp] theorem State.setTags_results (f : Perm) (a n : Nat) : (s.setTags f a n).results = s.results := rfl
@[simp] theorem State.setTags_dacLog (f : Perm) (a n : Nat) : (s.setTags f a n).dacLog = s.dacLog := rfl

/-! ## `State.answer` -/

@[simp] theorem State.answer_cfg (g : Agent) (r : Result) : (s.answer g r).cfg = s.cfg := rfl
@[simp] theorem State.answer_shadow (g : Agent) (r : Result) : (s.answer g r).shadow = s.shadow := rfl
@[simp] theorem State.answer_perm (g : Agent) (r : Result) : (s.answer g r).perm = s.perm := rfl
@[simp] theorem State.answer_paused (g : Agent) (r : Result) : (s.answer g r).paused = s.paused := rfl
@[simp] theorem State.answer_W (g : Agent) (r : Result) : (s.answer g r).W = s.W := rfl
@[simp] theorem State.answer_R (g : Agent) (r : Result) : (s.answer g r).R = s.R := rfl
@[simp] theorem State.answer_evbuf (g : Agent) (r : Result) : (s.answer g r).evbuf = s.evbuf := rfl
@[simp] theorem State.answer_irqEnabled (g : Agent) (r : Result) : (s.answer g r).irqEnabled = s.irqEnabled := rfl
@[simp] theorem State.answer_rqSlot (g : Agent) (r : Result) : (s.answer g r).rqSlot = s.rqSlot := rfl
@[simp] theorem State.answer_rqHead (g : Agent) (r : Result) : (s.answer g r).rqHead = s.rqHead := rfl
@[simp] theorem State.answer_rqTail (g : Agent) (r : Result) : (s.answer g r).rqTail = s.rqTail := rfl
@[simp] theorem State.answer_pool (g : Agent) (r : Result) : (s.answer g r).pool = s.pool := rfl
@[simp] theorem State.answer_writingSlot (g : Agent) (r : Result) : (s.answer g r).writingSlot = s.writingSlot := rfl
@[simp] theorem State.answer_rowBase (g : Agent) (r : Result) : (s.answer g r).rowBase = s.rowBase := rfl
@[simp] theorem State.answer_lineCount (g : Agent) (r : Result) : (s.answer g r).lineCount = s.lineCount := rfl
@[simp] theorem State.answer_lastMode (g : Agent) (r : Result) : (s.answer g r).lastMode = s.lastMode := rfl
@[simp] theorem State.answer_rendererCfg (g : Agent) (r : Result) : (s.answer g r).rendererCfg = s.rendererCfg := rfl
@[simp] theorem State.answer_rendererFrame (g : Agent) (r : Result) : (s.answer g r).rendererFrame = s.rendererFrame := rfl
@[simp] theorem State.answer_fc (g : Agent) (r : Result) : (s.answer g r).fc = s.fc := rfl
@[simp] theorem State.answer_reveal (g : Agent) (r : Result) : (s.answer g r).reveal = s.reveal := rfl
@[simp] theorem State.answer_ttLowerNext (g : Agent) (r : Result) : (s.answer g r).ttLowerNext = s.ttLowerNext := rfl
@[simp] theorem State.answer_ttLowerCur (g : Agent) (r : Result) : (s.answer g r).ttLowerCur = s.ttLowerCur := rfl
@[simp] theorem State.answer_ttCrtcIdx (g : Agent) (r : Result) : (s.answer g r).ttCrtcIdx = s.ttCrtcIdx := rfl
@[simp] theorem State.answer_ttStart (g : Agent) (r : Result) : (s.answer g r).ttStart = s.ttStart := rfl
@[simp] theorem State.answer_ttCursor (g : Agent) (r : Result) : (s.answer g r).ttCursor = s.ttCursor := rfl
@[simp] theorem State.answer_afSlot (g : Agent) (r : Result) : (s.answer g r).afSlot = s.afSlot := rfl
@[simp] theorem State.answer_afHead (g : Agent) (r : Result) : (s.answer g r).afHead = s.afHead := rfl
@[simp] theorem State.answer_afTail (g : Agent) (r : Result) : (s.answer g r).afTail = s.afTail := rfl
@[simp] theorem State.answer_synth (g : Agent) (r : Result) : (s.answer g r).synth = s.synth := rfl
@[simp] theorem State.answer_audioArmed (g : Agent) (r : Result) : (s.answer g r).audioArmed = s.audioArmed := rfl
@[simp] theorem State.answer_dacLevel (g : Agent) (r : Result) : (s.answer g r).dacLevel = s.dacLevel := rfl
@[simp] theorem State.answer_fatal (g : Agent) (r : Result) : (s.answer g r).fatal = s.fatal := rfl
@[simp] theorem State.answer_refused (g : Agent) (r : Result) : (s.answer g r).refused = s.refused := rfl
@[simp] theorem State.answer_irqPhase (g : Agent) (r : Result) : (s.answer g r).irqPhase = s.irqPhase := rfl
@[simp] theorem State.answer_rendPhase (g : Agent) (r : Result) : (s.answer g r).rendPhase = s.rendPhase := rfl
@[simp] theorem State.answer_swPhase (g : Agent) (r : Result) : (s.answer g r).swPhase = s.swPhase := rfl
@[simp] theorem State.answer_audPhase (g : Agent) (r : Result) : (s.answer g r).audPhase = s.audPhase := rfl
@[simp] theorem State.answer_irqService (g : Agent) (r : Result) : (s.answer g r).irqService = s.irqService := rfl
@[simp] theorem State.answer_progs (g : Agent) (r : Result) : (s.answer g r).progs = s.progs := rfl
@[simp] theorem State.answer_sched (g : Agent) (r : Result) : (s.answer g r).sched = s.sched := rfl
@[simp] theorem State.answer_results (g : Agent) (r : Result) : (s.answer g r).results = (g, r) :: s.results := rfl
@[simp] theorem State.answer_dacLog (g : Agent) (r : Result) : (s.answer g r).dacLog = s.dacLog := rfl

/-! ## `State.refuse` -/

@[simp] theorem State.refuse_cfg (w : RefuseReason) : (s.refuse w).cfg = s.cfg := rfl
@[simp] theorem State.refuse_shadow (w : RefuseReason) : (s.refuse w).shadow = s.shadow := rfl
@[simp] theorem State.refuse_perm (w : RefuseReason) : (s.refuse w).perm = s.perm := rfl
@[simp] theorem State.refuse_paused (w : RefuseReason) : (s.refuse w).paused = s.paused := rfl
@[simp] theorem State.refuse_W (w : RefuseReason) : (s.refuse w).W = s.W := rfl
@[simp] theorem State.refuse_R (w : RefuseReason) : (s.refuse w).R = s.R := rfl
@[simp] theorem State.refuse_evbuf (w : RefuseReason) : (s.refuse w).evbuf = s.evbuf := rfl
@[simp] theorem State.refuse_irqEnabled (w : RefuseReason) : (s.refuse w).irqEnabled = s.irqEnabled := rfl
@[simp] theorem State.refuse_rqSlot (w : RefuseReason) : (s.refuse w).rqSlot = s.rqSlot := rfl
@[simp] theorem State.refuse_rqHead (w : RefuseReason) : (s.refuse w).rqHead = s.rqHead := rfl
@[simp] theorem State.refuse_rqTail (w : RefuseReason) : (s.refuse w).rqTail = s.rqTail := rfl
@[simp] theorem State.refuse_pool (w : RefuseReason) : (s.refuse w).pool = s.pool := rfl
@[simp] theorem State.refuse_writingSlot (w : RefuseReason) : (s.refuse w).writingSlot = s.writingSlot := rfl
@[simp] theorem State.refuse_rowBase (w : RefuseReason) : (s.refuse w).rowBase = s.rowBase := rfl
@[simp] theorem State.refuse_lineCount (w : RefuseReason) : (s.refuse w).lineCount = s.lineCount := rfl
@[simp] theorem State.refuse_lastMode (w : RefuseReason) : (s.refuse w).lastMode = s.lastMode := rfl
@[simp] theorem State.refuse_rendererCfg (w : RefuseReason) : (s.refuse w).rendererCfg = s.rendererCfg := rfl
@[simp] theorem State.refuse_rendererFrame (w : RefuseReason) : (s.refuse w).rendererFrame = s.rendererFrame := rfl
@[simp] theorem State.refuse_fc (w : RefuseReason) : (s.refuse w).fc = s.fc := rfl
@[simp] theorem State.refuse_reveal (w : RefuseReason) : (s.refuse w).reveal = s.reveal := rfl
@[simp] theorem State.refuse_ttLowerNext (w : RefuseReason) : (s.refuse w).ttLowerNext = s.ttLowerNext := rfl
@[simp] theorem State.refuse_ttLowerCur (w : RefuseReason) : (s.refuse w).ttLowerCur = s.ttLowerCur := rfl
@[simp] theorem State.refuse_ttCrtcIdx (w : RefuseReason) : (s.refuse w).ttCrtcIdx = s.ttCrtcIdx := rfl
@[simp] theorem State.refuse_ttStart (w : RefuseReason) : (s.refuse w).ttStart = s.ttStart := rfl
@[simp] theorem State.refuse_ttCursor (w : RefuseReason) : (s.refuse w).ttCursor = s.ttCursor := rfl
@[simp] theorem State.refuse_afSlot (w : RefuseReason) : (s.refuse w).afSlot = s.afSlot := rfl
@[simp] theorem State.refuse_afHead (w : RefuseReason) : (s.refuse w).afHead = s.afHead := rfl
@[simp] theorem State.refuse_afTail (w : RefuseReason) : (s.refuse w).afTail = s.afTail := rfl
@[simp] theorem State.refuse_synth (w : RefuseReason) : (s.refuse w).synth = s.synth := rfl
@[simp] theorem State.refuse_audioArmed (w : RefuseReason) : (s.refuse w).audioArmed = s.audioArmed := rfl
@[simp] theorem State.refuse_dacLevel (w : RefuseReason) : (s.refuse w).dacLevel = s.dacLevel := rfl
@[simp] theorem State.refuse_fatal (w : RefuseReason) : (s.refuse w).fatal = s.fatal := rfl
@[simp] theorem State.refuse_refused (w : RefuseReason) : (s.refuse w).refused = true := rfl
@[simp] theorem State.refuse_irqPhase (w : RefuseReason) : (s.refuse w).irqPhase = s.irqPhase := rfl
@[simp] theorem State.refuse_rendPhase (w : RefuseReason) : (s.refuse w).rendPhase = s.rendPhase := rfl
@[simp] theorem State.refuse_swPhase (w : RefuseReason) : (s.refuse w).swPhase = s.swPhase := rfl
@[simp] theorem State.refuse_audPhase (w : RefuseReason) : (s.refuse w).audPhase = s.audPhase := rfl
@[simp] theorem State.refuse_irqService (w : RefuseReason) : (s.refuse w).irqService = s.irqService := rfl
@[simp] theorem State.refuse_progs (w : RefuseReason) : (s.refuse w).progs = s.progs := rfl
@[simp] theorem State.refuse_sched (w : RefuseReason) : (s.refuse w).sched = s.sched := rfl
@[simp] theorem State.refuse_results (w : RefuseReason) : (s.refuse w).results = s.results := rfl
@[simp] theorem State.refuse_dacLog (w : RefuseReason) : (s.refuse w).dacLog = s.dacLog := rfl

/-! ## `State.enqueue` -/

@[simp] theorem State.enqueue_cfg (a : Addr) : (s.enqueue a).cfg = s.cfg := rfl
@[simp] theorem State.enqueue_shadow (a : Addr) : (s.enqueue a).shadow = s.shadow := rfl
@[simp] theorem State.enqueue_perm (a : Addr) : (s.enqueue a).perm = s.perm := rfl
@[simp] theorem State.enqueue_paused (a : Addr) : (s.enqueue a).paused = s.paused := rfl
@[simp] theorem State.enqueue_W (a : Addr) : (s.enqueue a).W = s.W + 1#32 := rfl
@[simp] theorem State.enqueue_R (a : Addr) : (s.enqueue a).R = s.R := rfl
@[simp] theorem State.enqueue_evbuf (a : Addr) : (s.enqueue a).evbuf = Sparse.set 0#16 s.evbuf (slotOf s.W s.cfg.evsCap) a := rfl
@[simp] theorem State.enqueue_irqEnabled (a : Addr) : (s.enqueue a).irqEnabled = s.irqEnabled := rfl
@[simp] theorem State.enqueue_rqSlot (a : Addr) : (s.enqueue a).rqSlot = s.rqSlot := rfl
@[simp] theorem State.enqueue_rqHead (a : Addr) : (s.enqueue a).rqHead = s.rqHead := rfl
@[simp] theorem State.enqueue_rqTail (a : Addr) : (s.enqueue a).rqTail = s.rqTail := rfl
@[simp] theorem State.enqueue_pool (a : Addr) : (s.enqueue a).pool = s.pool := rfl
@[simp] theorem State.enqueue_writingSlot (a : Addr) : (s.enqueue a).writingSlot = s.writingSlot := rfl
@[simp] theorem State.enqueue_rowBase (a : Addr) : (s.enqueue a).rowBase = s.rowBase := rfl
@[simp] theorem State.enqueue_lineCount (a : Addr) : (s.enqueue a).lineCount = s.lineCount := rfl
@[simp] theorem State.enqueue_lastMode (a : Addr) : (s.enqueue a).lastMode = s.lastMode := rfl
@[simp] theorem State.enqueue_rendererCfg (a : Addr) : (s.enqueue a).rendererCfg = s.rendererCfg := rfl
@[simp] theorem State.enqueue_rendererFrame (a : Addr) : (s.enqueue a).rendererFrame = s.rendererFrame := rfl
@[simp] theorem State.enqueue_fc (a : Addr) : (s.enqueue a).fc = s.fc := rfl
@[simp] theorem State.enqueue_reveal (a : Addr) : (s.enqueue a).reveal = s.reveal := rfl
@[simp] theorem State.enqueue_ttLowerNext (a : Addr) : (s.enqueue a).ttLowerNext = s.ttLowerNext := rfl
@[simp] theorem State.enqueue_ttLowerCur (a : Addr) : (s.enqueue a).ttLowerCur = s.ttLowerCur := rfl
@[simp] theorem State.enqueue_ttCrtcIdx (a : Addr) : (s.enqueue a).ttCrtcIdx = s.ttCrtcIdx := rfl
@[simp] theorem State.enqueue_ttStart (a : Addr) : (s.enqueue a).ttStart = s.ttStart := rfl
@[simp] theorem State.enqueue_ttCursor (a : Addr) : (s.enqueue a).ttCursor = s.ttCursor := rfl
@[simp] theorem State.enqueue_afSlot (a : Addr) : (s.enqueue a).afSlot = s.afSlot := rfl
@[simp] theorem State.enqueue_afHead (a : Addr) : (s.enqueue a).afHead = s.afHead := rfl
@[simp] theorem State.enqueue_afTail (a : Addr) : (s.enqueue a).afTail = s.afTail := rfl
@[simp] theorem State.enqueue_synth (a : Addr) : (s.enqueue a).synth = s.synth := rfl
@[simp] theorem State.enqueue_audioArmed (a : Addr) : (s.enqueue a).audioArmed = s.audioArmed := rfl
@[simp] theorem State.enqueue_dacLevel (a : Addr) : (s.enqueue a).dacLevel = s.dacLevel := rfl
@[simp] theorem State.enqueue_fatal (a : Addr) : (s.enqueue a).fatal = s.fatal := rfl
@[simp] theorem State.enqueue_refused (a : Addr) : (s.enqueue a).refused = s.refused := rfl
@[simp] theorem State.enqueue_irqPhase (a : Addr) : (s.enqueue a).irqPhase = s.irqPhase := rfl
@[simp] theorem State.enqueue_rendPhase (a : Addr) : (s.enqueue a).rendPhase = s.rendPhase := rfl
@[simp] theorem State.enqueue_swPhase (a : Addr) : (s.enqueue a).swPhase = s.swPhase := rfl
@[simp] theorem State.enqueue_audPhase (a : Addr) : (s.enqueue a).audPhase = s.audPhase := rfl
@[simp] theorem State.enqueue_irqService (a : Addr) : (s.enqueue a).irqService = s.irqService := rfl
@[simp] theorem State.enqueue_progs (a : Addr) : (s.enqueue a).progs = s.progs := rfl
@[simp] theorem State.enqueue_sched (a : Addr) : (s.enqueue a).sched = s.sched := rfl
@[simp] theorem State.enqueue_results (a : Addr) : (s.enqueue a).results = s.results := rfl
@[simp] theorem State.enqueue_dacLog (a : Addr) : (s.enqueue a).dacLog = s.dacLog := rfl

/-! ## `State.writePixel` -/

@[simp] theorem State.writePixel_cfg (k x : Nat) (p : Pixel) : (s.writePixel k x p).cfg = s.cfg := rfl
@[simp] theorem State.writePixel_shadow (k x : Nat) (p : Pixel) : (s.writePixel k x p).shadow = s.shadow := rfl
@[simp] theorem State.writePixel_perm (k x : Nat) (p : Pixel) : (s.writePixel k x p).perm = s.perm := rfl
@[simp] theorem State.writePixel_paused (k x : Nat) (p : Pixel) : (s.writePixel k x p).paused = s.paused := rfl
@[simp] theorem State.writePixel_W (k x : Nat) (p : Pixel) : (s.writePixel k x p).W = s.W := rfl
@[simp] theorem State.writePixel_R (k x : Nat) (p : Pixel) : (s.writePixel k x p).R = s.R := rfl
@[simp] theorem State.writePixel_evbuf (k x : Nat) (p : Pixel) : (s.writePixel k x p).evbuf = s.evbuf := rfl
@[simp] theorem State.writePixel_irqEnabled (k x : Nat) (p : Pixel) : (s.writePixel k x p).irqEnabled = s.irqEnabled := rfl
@[simp] theorem State.writePixel_rqSlot (k x : Nat) (p : Pixel) : (s.writePixel k x p).rqSlot = s.rqSlot := rfl
@[simp] theorem State.writePixel_rqHead (k x : Nat) (p : Pixel) : (s.writePixel k x p).rqHead = s.rqHead := rfl
@[simp] theorem State.writePixel_rqTail (k x : Nat) (p : Pixel) : (s.writePixel k x p).rqTail = s.rqTail := rfl
@[simp] theorem State.writePixel_pool (k x : Nat) (p : Pixel) : (s.writePixel k x p).pool = Sparse.set 0#8 s.pool (poolIndex s.cfg k x) p := rfl
@[simp] theorem State.writePixel_writingSlot (k x : Nat) (p : Pixel) : (s.writePixel k x p).writingSlot = s.writingSlot := rfl
@[simp] theorem State.writePixel_rowBase (k x : Nat) (p : Pixel) : (s.writePixel k x p).rowBase = s.rowBase := rfl
@[simp] theorem State.writePixel_lineCount (k x : Nat) (p : Pixel) : (s.writePixel k x p).lineCount = s.lineCount := rfl
@[simp] theorem State.writePixel_lastMode (k x : Nat) (p : Pixel) : (s.writePixel k x p).lastMode = s.lastMode := rfl
@[simp] theorem State.writePixel_rendererCfg (k x : Nat) (p : Pixel) : (s.writePixel k x p).rendererCfg = s.rendererCfg := rfl
@[simp] theorem State.writePixel_rendererFrame (k x : Nat) (p : Pixel) : (s.writePixel k x p).rendererFrame = s.rendererFrame := rfl
@[simp] theorem State.writePixel_fc (k x : Nat) (p : Pixel) : (s.writePixel k x p).fc = s.fc := rfl
@[simp] theorem State.writePixel_reveal (k x : Nat) (p : Pixel) : (s.writePixel k x p).reveal = s.reveal := rfl
@[simp] theorem State.writePixel_ttLowerNext (k x : Nat) (p : Pixel) : (s.writePixel k x p).ttLowerNext = s.ttLowerNext := rfl
@[simp] theorem State.writePixel_ttLowerCur (k x : Nat) (p : Pixel) : (s.writePixel k x p).ttLowerCur = s.ttLowerCur := rfl
@[simp] theorem State.writePixel_ttCrtcIdx (k x : Nat) (p : Pixel) : (s.writePixel k x p).ttCrtcIdx = s.ttCrtcIdx := rfl
@[simp] theorem State.writePixel_ttStart (k x : Nat) (p : Pixel) : (s.writePixel k x p).ttStart = s.ttStart := rfl
@[simp] theorem State.writePixel_ttCursor (k x : Nat) (p : Pixel) : (s.writePixel k x p).ttCursor = s.ttCursor := rfl
@[simp] theorem State.writePixel_afSlot (k x : Nat) (p : Pixel) : (s.writePixel k x p).afSlot = s.afSlot := rfl
@[simp] theorem State.writePixel_afHead (k x : Nat) (p : Pixel) : (s.writePixel k x p).afHead = s.afHead := rfl
@[simp] theorem State.writePixel_afTail (k x : Nat) (p : Pixel) : (s.writePixel k x p).afTail = s.afTail := rfl
@[simp] theorem State.writePixel_synth (k x : Nat) (p : Pixel) : (s.writePixel k x p).synth = s.synth := rfl
@[simp] theorem State.writePixel_audioArmed (k x : Nat) (p : Pixel) : (s.writePixel k x p).audioArmed = s.audioArmed := rfl
@[simp] theorem State.writePixel_dacLevel (k x : Nat) (p : Pixel) : (s.writePixel k x p).dacLevel = s.dacLevel := rfl
@[simp] theorem State.writePixel_fatal (k x : Nat) (p : Pixel) : (s.writePixel k x p).fatal = s.fatal := rfl
@[simp] theorem State.writePixel_refused (k x : Nat) (p : Pixel) : (s.writePixel k x p).refused = s.refused := rfl
@[simp] theorem State.writePixel_irqPhase (k x : Nat) (p : Pixel) : (s.writePixel k x p).irqPhase = s.irqPhase := rfl
@[simp] theorem State.writePixel_rendPhase (k x : Nat) (p : Pixel) : (s.writePixel k x p).rendPhase = s.rendPhase := rfl
@[simp] theorem State.writePixel_swPhase (k x : Nat) (p : Pixel) : (s.writePixel k x p).swPhase = s.swPhase := rfl
@[simp] theorem State.writePixel_audPhase (k x : Nat) (p : Pixel) : (s.writePixel k x p).audPhase = s.audPhase := rfl
@[simp] theorem State.writePixel_irqService (k x : Nat) (p : Pixel) : (s.writePixel k x p).irqService = s.irqService := rfl
@[simp] theorem State.writePixel_progs (k x : Nat) (p : Pixel) : (s.writePixel k x p).progs = s.progs := rfl
@[simp] theorem State.writePixel_sched (k x : Nat) (p : Pixel) : (s.writePixel k x p).sched = s.sched := rfl
@[simp] theorem State.writePixel_results (k x : Nat) (p : Pixel) : (s.writePixel k x p).results = s.results := rfl
@[simp] theorem State.writePixel_dacLog (k x : Nat) (p : Pixel) : (s.writePixel k x p).dacLog = s.dacLog := rfl

/-! ## `State.writeLine` -/

@[simp] theorem State.writeLine_cfg (k : Nat) (px : List Pixel) : (s.writeLine k px).cfg = s.cfg := rfl
@[simp] theorem State.writeLine_shadow (k : Nat) (px : List Pixel) : (s.writeLine k px).shadow = s.shadow := rfl
@[simp] theorem State.writeLine_perm (k : Nat) (px : List Pixel) : (s.writeLine k px).perm = s.perm := rfl
@[simp] theorem State.writeLine_paused (k : Nat) (px : List Pixel) : (s.writeLine k px).paused = s.paused := rfl
@[simp] theorem State.writeLine_W (k : Nat) (px : List Pixel) : (s.writeLine k px).W = s.W := rfl
@[simp] theorem State.writeLine_R (k : Nat) (px : List Pixel) : (s.writeLine k px).R = s.R := rfl
@[simp] theorem State.writeLine_evbuf (k : Nat) (px : List Pixel) : (s.writeLine k px).evbuf = s.evbuf := rfl
@[simp] theorem State.writeLine_irqEnabled (k : Nat) (px : List Pixel) : (s.writeLine k px).irqEnabled = s.irqEnabled := rfl
@[simp] theorem State.writeLine_rqSlot (k : Nat) (px : List Pixel) : (s.writeLine k px).rqSlot = s.rqSlot := rfl
@[simp] theorem State.writeLine_rqHead (k : Nat) (px : List Pixel) : (s.writeLine k px).rqHead = s.rqHead := rfl
@[simp] theorem State.writeLine_rqTail (k : Nat) (px : List Pixel) : (s.writeLine k px).rqTail = s.rqTail := rfl
@[simp] theorem State.writeLine_pool (k : Nat) (px : List Pixel) : (s.writeLine k px).pool = Sparse.splice 0#8 s.pool (poolIndex s.cfg k 0) px := rfl
@[simp] theorem State.writeLine_writingSlot (k : Nat) (px : List Pixel) : (s.writeLine k px).writingSlot = s.writingSlot := rfl
@[simp] theorem State.writeLine_rowBase (k : Nat) (px : List Pixel) : (s.writeLine k px).rowBase = s.rowBase := rfl
@[simp] theorem State.writeLine_lineCount (k : Nat) (px : List Pixel) : (s.writeLine k px).lineCount = s.lineCount := rfl
@[simp] theorem State.writeLine_lastMode (k : Nat) (px : List Pixel) : (s.writeLine k px).lastMode = s.lastMode := rfl
@[simp] theorem State.writeLine_rendererCfg (k : Nat) (px : List Pixel) : (s.writeLine k px).rendererCfg = s.rendererCfg := rfl
@[simp] theorem State.writeLine_rendererFrame (k : Nat) (px : List Pixel) : (s.writeLine k px).rendererFrame = s.rendererFrame := rfl
@[simp] theorem State.writeLine_fc (k : Nat) (px : List Pixel) : (s.writeLine k px).fc = s.fc := rfl
@[simp] theorem State.writeLine_reveal (k : Nat) (px : List Pixel) : (s.writeLine k px).reveal = s.reveal := rfl
@[simp] theorem State.writeLine_ttLowerNext (k : Nat) (px : List Pixel) : (s.writeLine k px).ttLowerNext = s.ttLowerNext := rfl
@[simp] theorem State.writeLine_ttLowerCur (k : Nat) (px : List Pixel) : (s.writeLine k px).ttLowerCur = s.ttLowerCur := rfl
@[simp] theorem State.writeLine_ttCrtcIdx (k : Nat) (px : List Pixel) : (s.writeLine k px).ttCrtcIdx = s.ttCrtcIdx := rfl
@[simp] theorem State.writeLine_ttStart (k : Nat) (px : List Pixel) : (s.writeLine k px).ttStart = s.ttStart := rfl
@[simp] theorem State.writeLine_ttCursor (k : Nat) (px : List Pixel) : (s.writeLine k px).ttCursor = s.ttCursor := rfl
@[simp] theorem State.writeLine_afSlot (k : Nat) (px : List Pixel) : (s.writeLine k px).afSlot = s.afSlot := rfl
@[simp] theorem State.writeLine_afHead (k : Nat) (px : List Pixel) : (s.writeLine k px).afHead = s.afHead := rfl
@[simp] theorem State.writeLine_afTail (k : Nat) (px : List Pixel) : (s.writeLine k px).afTail = s.afTail := rfl
@[simp] theorem State.writeLine_synth (k : Nat) (px : List Pixel) : (s.writeLine k px).synth = s.synth := rfl
@[simp] theorem State.writeLine_audioArmed (k : Nat) (px : List Pixel) : (s.writeLine k px).audioArmed = s.audioArmed := rfl
@[simp] theorem State.writeLine_dacLevel (k : Nat) (px : List Pixel) : (s.writeLine k px).dacLevel = s.dacLevel := rfl
@[simp] theorem State.writeLine_fatal (k : Nat) (px : List Pixel) : (s.writeLine k px).fatal = s.fatal := rfl
@[simp] theorem State.writeLine_refused (k : Nat) (px : List Pixel) : (s.writeLine k px).refused = s.refused := rfl
@[simp] theorem State.writeLine_irqPhase (k : Nat) (px : List Pixel) : (s.writeLine k px).irqPhase = s.irqPhase := rfl
@[simp] theorem State.writeLine_rendPhase (k : Nat) (px : List Pixel) : (s.writeLine k px).rendPhase = s.rendPhase := rfl
@[simp] theorem State.writeLine_swPhase (k : Nat) (px : List Pixel) : (s.writeLine k px).swPhase = s.swPhase := rfl
@[simp] theorem State.writeLine_audPhase (k : Nat) (px : List Pixel) : (s.writeLine k px).audPhase = s.audPhase := rfl
@[simp] theorem State.writeLine_irqService (k : Nat) (px : List Pixel) : (s.writeLine k px).irqService = s.irqService := rfl
@[simp] theorem State.writeLine_progs (k : Nat) (px : List Pixel) : (s.writeLine k px).progs = s.progs := rfl
@[simp] theorem State.writeLine_sched (k : Nat) (px : List Pixel) : (s.writeLine k px).sched = s.sched := rfl
@[simp] theorem State.writeLine_results (k : Nat) (px : List Pixel) : (s.writeLine k px).results = s.results := rfl
@[simp] theorem State.writeLine_dacLog (k : Nat) (px : List Pixel) : (s.writeLine k px).dacLog = s.dacLog := rfl

/-! ## `State.rqPush` -/

@[simp] theorem State.rqPush_cfg (k : Token) : (s.rqPush k).cfg = s.cfg := by unfold State.rqPush; split <;> rfl
@[simp] theorem State.rqPush_shadow (k : Token) : (s.rqPush k).shadow = s.shadow := by unfold State.rqPush; split <;> rfl
@[simp] theorem State.rqPush_perm (k : Token) : (s.rqPush k).perm = s.perm := by unfold State.rqPush; split <;> rfl
@[simp] theorem State.rqPush_paused (k : Token) : (s.rqPush k).paused = s.paused := by unfold State.rqPush; split <;> rfl
@[simp] theorem State.rqPush_W (k : Token) : (s.rqPush k).W = s.W := by unfold State.rqPush; split <;> rfl
@[simp] theorem State.rqPush_R (k : Token) : (s.rqPush k).R = s.R := by unfold State.rqPush; split <;> rfl
@[simp] theorem State.rqPush_evbuf (k : Token) : (s.rqPush k).evbuf = s.evbuf := by unfold State.rqPush; split <;> rfl
@[simp] theorem State.rqPush_irqEnabled (k : Token) : (s.rqPush k).irqEnabled = s.irqEnabled := by unfold State.rqPush; split <;> rfl
@[simp] theorem State.rqPush_rqTail (k : Token) : (s.rqPush k).rqTail = s.rqTail := by unfold State.rqPush; split <;> rfl
@[simp] theorem State.rqPush_pool (k : Token) : (s.rqPush k).pool = s.pool := by unfold State.rqPush; split <;> rfl
@[simp] theorem State.rqPush_writingSlot (k : Token) : (s.rqPush k).writingSlot = s.writingSlot := by unfold State.rqPush; split <;> rfl
@[simp] theorem State.rqPush_rowBase (k : Token) : (s.rqPush k).rowBase = s.rowBase := by unfold State.rqPush; split <;> rfl
@[simp] theorem State.rqPush_lineCount (k : Token) : (s.rqPush k).lineCount = s.lineCount := by unfold State.rqPush; split <;> rfl
@[simp] theorem State.rqPush_lastMode (k : Token) : (s.rqPush k).lastMode = s.lastMode := by unfold State.rqPush; split <;> rfl
@[simp] theorem State.rqPush_rendererCfg (k : Token) : (s.rqPush k).rendererCfg = s.rendererCfg := by unfold State.rqPush; split <;> rfl
@[simp] theorem State.rqPush_rendererFrame (k : Token) : (s.rqPush k).rendererFrame = s.rendererFrame := by unfold State.rqPush; split <;> rfl
@[simp] theorem State.rqPush_fc (k : Token) : (s.rqPush k).fc = s.fc := by unfold State.rqPush; split <;> rfl
@[simp] theorem State.rqPush_reveal (k : Token) : (s.rqPush k).reveal = s.reveal := by unfold State.rqPush; split <;> rfl
@[simp] theorem State.rqPush_ttLowerNext (k : Token) : (s.rqPush k).ttLowerNext = s.ttLowerNext := by unfold State.rqPush; split <;> rfl
@[simp] theorem State.rqPush_ttLowerCur (k : Token) : (s.rqPush k).ttLowerCur = s.ttLowerCur := by unfold State.rqPush; split <;> rfl
@[simp] theorem State.rqPush_ttCrtcIdx (k : Token) : (s.rqPush k).ttCrtcIdx = s.ttCrtcIdx := by unfold State.rqPush; split <;> rfl
@[simp] theorem State.rqPush_ttStart (k : Token) : (s.rqPush k).ttStart = s.ttStart := by unfold State.rqPush; split <;> rfl
@[simp] theorem State.rqPush_ttCursor (k : Token) : (s.rqPush k).ttCursor = s.ttCursor := by unfold State.rqPush; split <;> rfl
@[simp] theorem State.rqPush_afSlot (k : Token) : (s.rqPush k).afSlot = s.afSlot := by unfold State.rqPush; split <;> rfl
@[simp] theorem State.rqPush_afHead (k : Token) : (s.rqPush k).afHead = s.afHead := by unfold State.rqPush; split <;> rfl
@[simp] theorem State.rqPush_afTail (k : Token) : (s.rqPush k).afTail = s.afTail := by unfold State.rqPush; split <;> rfl
@[simp] theorem State.rqPush_synth (k : Token) : (s.rqPush k).synth = s.synth := by unfold State.rqPush; split <;> rfl
@[simp] theorem State.rqPush_audioArmed (k : Token) : (s.rqPush k).audioArmed = s.audioArmed := by unfold State.rqPush; split <;> rfl
@[simp] theorem State.rqPush_dacLevel (k : Token) : (s.rqPush k).dacLevel = s.dacLevel := by unfold State.rqPush; split <;> rfl
@[simp] theorem State.rqPush_fatal (k : Token) : (s.rqPush k).fatal = s.fatal := by unfold State.rqPush; split <;> rfl
@[simp] theorem State.rqPush_refused (k : Token) : (s.rqPush k).refused = s.refused := by unfold State.rqPush; split <;> rfl
@[simp] theorem State.rqPush_irqPhase (k : Token) : (s.rqPush k).irqPhase = s.irqPhase := by unfold State.rqPush; split <;> rfl
@[simp] theorem State.rqPush_rendPhase (k : Token) : (s.rqPush k).rendPhase = s.rendPhase := by unfold State.rqPush; split <;> rfl
@[simp] theorem State.rqPush_swPhase (k : Token) : (s.rqPush k).swPhase = s.swPhase := by unfold State.rqPush; split <;> rfl
@[simp] theorem State.rqPush_audPhase (k : Token) : (s.rqPush k).audPhase = s.audPhase := by unfold State.rqPush; split <;> rfl
@[simp] theorem State.rqPush_irqService (k : Token) : (s.rqPush k).irqService = s.irqService := by unfold State.rqPush; split <;> rfl
@[simp] theorem State.rqPush_progs (k : Token) : (s.rqPush k).progs = s.progs := by unfold State.rqPush; split <;> rfl
@[simp] theorem State.rqPush_sched (k : Token) : (s.rqPush k).sched = s.sched := by unfold State.rqPush; split <;> rfl
@[simp] theorem State.rqPush_results (k : Token) : (s.rqPush k).results = s.results := by unfold State.rqPush; split <;> rfl
@[simp] theorem State.rqPush_dacLog (k : Token) : (s.rqPush k).dacLog = s.dacLog := by unfold State.rqPush; split <;> rfl

/-! ## `State.afPush` -/

@[simp] theorem State.afPush_cfg (e : Entry) : (s.afPush e).cfg = s.cfg := by unfold State.afPush; split <;> rfl
@[simp] theorem State.afPush_shadow (e : Entry) : (s.afPush e).shadow = s.shadow := by unfold State.afPush; split <;> rfl
@[simp] theorem State.afPush_perm (e : Entry) : (s.afPush e).perm = s.perm := by unfold State.afPush; split <;> rfl
@[simp] theorem State.afPush_paused (e : Entry) : (s.afPush e).paused = s.paused := by unfold State.afPush; split <;> rfl
@[simp] theorem State.afPush_W (e : Entry) : (s.afPush e).W = s.W := by unfold State.afPush; split <;> rfl
@[simp] theorem State.afPush_R (e : Entry) : (s.afPush e).R = s.R := by unfold State.afPush; split <;> rfl
@[simp] theorem State.afPush_evbuf (e : Entry) : (s.afPush e).evbuf = s.evbuf := by unfold State.afPush; split <;> rfl
@[simp] theorem State.afPush_irqEnabled (e : Entry) : (s.afPush e).irqEnabled = s.irqEnabled := by unfold State.afPush; split <;> rfl
@[simp] theorem State.afPush_rqSlot (e : Entry) : (s.afPush e).rqSlot = s.rqSlot := by unfold State.afPush; split <;> rfl
@[simp] theorem State.afPush_rqHead (e : Entry) : (s.afPush e).rqHead = s.rqHead := by unfold State.afPush; split <;> rfl
@[simp] theorem State.afPush_rqTail (e : Entry) : (s.afPush e).rqTail = s.rqTail := by unfold State.afPush; split <;> rfl
@[simp] theorem State.afPush_pool (e : Entry) : (s.afPush e).pool = s.pool := by unfold State.afPush; split <;> rfl
@[simp] theorem State.afPush_writingSlot (e : Entry) : (s.afPush e).writingSlot = s.writingSlot := by unfold State.afPush; split <;> rfl
@[simp] theorem State.afPush_rowBase (e : Entry) : (s.afPush e).rowBase = s.rowBase := by unfold State.afPush; split <;> rfl
@[simp] theorem State.afPush_lineCount (e : Entry) : (s.afPush e).lineCount = s.lineCount := by unfold State.afPush; split <;> rfl
@[simp] theorem State.afPush_lastMode (e : Entry) : (s.afPush e).lastMode = s.lastMode := by unfold State.afPush; split <;> rfl
@[simp] theorem State.afPush_rendererCfg (e : Entry) : (s.afPush e).rendererCfg = s.rendererCfg := by unfold State.afPush; split <;> rfl
@[simp] theorem State.afPush_rendererFrame (e : Entry) : (s.afPush e).rendererFrame = s.rendererFrame := by unfold State.afPush; split <;> rfl
@[simp] theorem State.afPush_fc (e : Entry) : (s.afPush e).fc = s.fc := by unfold State.afPush; split <;> rfl
@[simp] theorem State.afPush_reveal (e : Entry) : (s.afPush e).reveal = s.reveal := by unfold State.afPush; split <;> rfl
@[simp] theorem State.afPush_ttLowerNext (e : Entry) : (s.afPush e).ttLowerNext = s.ttLowerNext := by unfold State.afPush; split <;> rfl
@[simp] theorem State.afPush_ttLowerCur (e : Entry) : (s.afPush e).ttLowerCur = s.ttLowerCur := by unfold State.afPush; split <;> rfl
@[simp] theorem State.afPush_ttCrtcIdx (e : Entry) : (s.afPush e).ttCrtcIdx = s.ttCrtcIdx := by unfold State.afPush; split <;> rfl
@[simp] theorem State.afPush_ttStart (e : Entry) : (s.afPush e).ttStart = s.ttStart := by unfold State.afPush; split <;> rfl
@[simp] theorem State.afPush_ttCursor (e : Entry) : (s.afPush e).ttCursor = s.ttCursor := by unfold State.afPush; split <;> rfl
@[simp] theorem State.afPush_afTail (e : Entry) : (s.afPush e).afTail = s.afTail := by unfold State.afPush; split <;> rfl
@[simp] theorem State.afPush_synth (e : Entry) : (s.afPush e).synth = s.synth := by unfold State.afPush; split <;> rfl
@[simp] theorem State.afPush_audioArmed (e : Entry) : (s.afPush e).audioArmed = s.audioArmed := by unfold State.afPush; split <;> rfl
@[simp] theorem State.afPush_dacLevel (e : Entry) : (s.afPush e).dacLevel = s.dacLevel := by unfold State.afPush; split <;> rfl
@[simp] theorem State.afPush_fatal (e : Entry) : (s.afPush e).fatal = s.fatal := by unfold State.afPush; split <;> rfl
@[simp] theorem State.afPush_refused (e : Entry) : (s.afPush e).refused = s.refused := by unfold State.afPush; split <;> rfl
@[simp] theorem State.afPush_irqPhase (e : Entry) : (s.afPush e).irqPhase = s.irqPhase := by unfold State.afPush; split <;> rfl
@[simp] theorem State.afPush_rendPhase (e : Entry) : (s.afPush e).rendPhase = s.rendPhase := by unfold State.afPush; split <;> rfl
@[simp] theorem State.afPush_swPhase (e : Entry) : (s.afPush e).swPhase = s.swPhase := by unfold State.afPush; split <;> rfl
@[simp] theorem State.afPush_audPhase (e : Entry) : (s.afPush e).audPhase = s.audPhase := by unfold State.afPush; split <;> rfl
@[simp] theorem State.afPush_irqService (e : Entry) : (s.afPush e).irqService = s.irqService := by unfold State.afPush; split <;> rfl
@[simp] theorem State.afPush_progs (e : Entry) : (s.afPush e).progs = s.progs := by unfold State.afPush; split <;> rfl
@[simp] theorem State.afPush_sched (e : Entry) : (s.afPush e).sched = s.sched := by unfold State.afPush; split <;> rfl
@[simp] theorem State.afPush_results (e : Entry) : (s.afPush e).results = s.results := by unfold State.afPush; split <;> rfl
@[simp] theorem State.afPush_dacLog (e : Entry) : (s.afPush e).dacLog = s.dacLog := by unfold State.afPush; split <;> rfl

end Sys2Proof.Machine
end

