-- ==== Sys2Proof/Laws/Ops.lean ====
section
/-! SUPPORT. One lemma for each shared operation that says everything it can do: reads after writes through the state's own
accessors, what an issue can answer, and the frame of each composite operation. -/

namespace Sys2Proof.Machine

/-! ## Reads after writes -/

theorem State.readByte_writeByte (s : State) (a b : Addr) (v : Byte) :
    (s.writeByte a v).readByte b = if b = a then v else s.readByte b := by
  simp only [State.readByte, State.writeByte_shadow, Sparse.get_set, BitVec.toNat_inj]

theorem State.permAt_setTag (s : State) (f : Perm) (a : Nat) (b : Addr) :
    (s.setTag f a).permAt b = if b.toNat = a then f else s.permAt b := by
  simp only [State.permAt, State.setTag_perm, Sparse.get_set]

theorem State.permAt_setTags (s : State) (f : Perm) (base n : Nat) (b : Addr) :
    (s.setTags f base n).permAt b = if base ≤ b.toNat ∧ b.toNat < base + n then f else s.permAt b := by
  simp only [State.permAt, State.setTags_perm, Sparse.get_splice, List.length_replicate]
  by_cases h : base ≤ b.toNat ∧ b.toNat < base + n
  · have h2 : b.toNat - base < n := by omega
    simp [h, h2]
  · simp [h]

theorem State.poolAt_writePixel (s : State) (k x : Nat) (p : Pixel) (l y : Nat) :
    (s.writePixel k x p).poolAt l y = if poolIndex s.cfg l y = poolIndex s.cfg k x then p else s.poolAt l y := by
  simp only [State.poolAt, State.writePixel_pool, State.writePixel_cfg, Sparse.get_set]

/-- Inside LINE_PIXELS two pixels share an index only if slot and position agree. -/
theorem poolIndex_inj (c : Cfg) {k l x y : Nat} (hx : x < c.linePixels) (hy : y < c.linePixels)
    (h : poolIndex c k x = poolIndex c l y) : k = l ∧ x = y := by
  unfold poolIndex at h
  have hk : k = l := by
    have h1 : (k * c.linePixels + x) / c.linePixels = k := by
      rw [Nat.add_comm, Nat.add_mul_div_right _ _ (by omega), Nat.div_eq_of_lt hx, Nat.zero_add]
    have h2 : (l * c.linePixels + y) / c.linePixels = l := by
      rw [Nat.add_comm, Nat.add_mul_div_right _ _ (by omega), Nat.div_eq_of_lt hy, Nat.zero_add]
    rw [← h1, ← h2, h]
  subst hk
  exact ⟨rfl, by omega⟩

/-- After a line of LINE_PIXELS pixels is written to a slot, that slot reads the line and every other slot reads as before. -/
theorem State.poolAt_writeLine (s : State) (k : Nat) (px : List Pixel) (hpx : px.length = s.cfg.linePixels) (l y : Nat)
    (hy : y < s.cfg.linePixels) :
    (s.writeLine k px).poolAt l y = if l = k then px.getD y 0#8 else s.poolAt l y := by
  simp only [State.poolAt, State.writeLine_pool, State.writeLine_cfg, Sparse.get_splice, hpx]
  by_cases h : l = k
  · subst h
    rw [if_pos (by unfold poolIndex; omega), if_pos rfl]
    congr 1
    unfold poolIndex; omega
  · rw [if_neg h, if_neg]
    rintro ⟨h1, h2⟩
    obtain ⟨z, hz, hzy⟩ : ∃ z < s.cfg.linePixels, poolIndex s.cfg l y = poolIndex s.cfg k z :=
      ⟨poolIndex s.cfg l y - poolIndex s.cfg k 0, by omega, by unfold poolIndex at *; omega⟩
    exact h (poolIndex_inj s.cfg hy hz hzy).1

theorem State.evSlot_enqueue (s : State) (a : Addr) (n : Word32) :
    (s.enqueue a).evSlot n = if slotOf n s.cfg.evsCap = slotOf s.W s.cfg.evsCap then a else s.evSlot n := by
  simp only [State.evSlot, State.enqueue_evbuf, State.enqueue_cfg, Sparse.get_set]

/-! ## What an issue answers -/

@[simp] theorem issue_go {s t : State} (h : s.fatal = none) : issue .go s t = .next t := by
  simp [issue, h]

@[simp] theorem issue_wait {s t : State} (h : s.fatal = none) : issue .wait s t = .next s := by
  simp [issue, h]

@[simp] theorem issue_refuse {s t : State} {w : RefuseReason} (h : s.fatal = none) :
    issue (.refuse w) s t = .next (s.refuse w) := by
  simp [issue, h]

theorem issue_fatal {s t : State} {a : Admission} {c : FatalCode} (h : s.fatal = some c) :
    issue a s t = .fault (.halted c) := by
  simp [issue, h]

/-- Everything an issue can answer with a next state. -/
theorem issue_next {a : Admission} {s t u : State} (h : issue a s t = .next u) :
    s.fatal = none ∧ ((a = .go ∧ u = t) ∨ (a = .wait ∧ u = s) ∨ ∃ w, a = .refuse w ∧ u = s.refuse w) := by
  unfold issue at h
  split at h
  · cases h
  · rename_i hf
    refine ⟨hf, ?_⟩
    split at h
    · cases h; exact .inl ⟨rfl, rfl⟩
    · cases h; exact .inr (.inl ⟨rfl, rfl⟩)
    · cases h; exact .inr (.inr ⟨_, rfl, rfl⟩)

/-! ## The sampling half of a poll (41_eventstream.md R164) -/

theorem State.pollSample_empty {s : State} {op : PollFor} (h : s.R = s.W) :
    s.pollSample op = s.answer .irq op.emptyResult := by
  have : s.evEmpty = true := by simp [State.evEmpty, h]
  simp [State.pollSample, this]

theorem State.pollSample_record {s : State} {op : PollFor} (h : s.R ≠ s.W) :
    s.pollSample op = { s with R := s.resynced s.W, irqPhase := .polling s.W op } := by
  have : s.evEmpty = false := by simp [State.evEmpty, h]
  simp [State.pollSample, this]

/-! ## Pushes into the queues (42_scanline_pipeline.md R193, 45_audio.md R347) -/

theorem State.rqPush_full {s : State} {t : Token} (h : s.rqCount.toNat = s.cfg.rqCap) : s.rqPush t = s := by
  have : s.rqFull = true := by simp [State.rqFull, h]
  simp [State.rqPush, this]

theorem State.rqPush_room {s : State} {t : Token} (h : s.rqCount.toNat ≠ s.cfg.rqCap) :
    s.rqPush t = { s with
      rqSlot := Sparse.set Token.vsync s.rqSlot (slotOf s.rqHead s.cfg.rqCap) t, rqHead := s.rqHead + 1#32 } := by
  have : s.rqFull = false := by simp [State.rqFull, h]
  simp [State.rqPush, this]

theorem State.afPush_full {s : State} {e : Entry} (h : s.afCount.toNat = s.cfg.afifoCap) : s.afPush e = s := by
  have : s.afFull = true := by simp [State.afFull, h]
  simp [State.afPush, this]

theorem State.afPush_room {s : State} {e : Entry} (h : s.afCount.toNat ≠ s.cfg.afifoCap) :
    s.afPush e = { s with
      afSlot := Sparse.set ⟨0#8, 0#9⟩ s.afSlot (slotOf s.afHead s.cfg.afifoCap) e, afHead := s.afHead + 1#32 } := by
  have : s.afFull = false := by simp [State.afFull, h]
  simp [State.afPush, this]

/-! ## Frames of the composite operations -/

theorem State.capture_frame (s : State) (a : Addr) (v : Byte) :
    s.capture a v = { s with
      shadow := (s.capture a v).shadow, evbuf := (s.capture a v).evbuf, W := (s.capture a v).W } := by
  unfold State.capture
  split
  · rfl
  · simp only
    split <;> split <;> rfl

theorem State.setPerm_frame (s : State) (f : Perm) (base len : Nat) :
    s.setPerm f base len = { s with
      perm := (s.setPerm f base len).perm, fatal := (s.setPerm f base len).fatal } := by
  unfold State.setPerm
  split <;> rfl

theorem State.fillStart_frame (s : State) (f : Perm) (base len : Nat) (k : FillThen) :
    s.fillStart f base len k = { s with
      fatal := (s.fillStart f base len k).fatal, swPhase := (s.fillStart f base len k).swPhase } := by
  unfold State.fillStart
  split
  · rfl
  · split <;> rfl

theorem State.swAdvance_frame (s : State) :
    s.swAdvance = { s with
      perm := s.swAdvance.perm, fatal := s.swAdvance.fatal, swPhase := s.swAdvance.swPhase,
      synth := s.swAdvance.synth, audioArmed := s.swAdvance.audioArmed } := by
  unfold State.swAdvance
  split
  · rfl
  · rfl
  · rw [State.fillStart_frame]
  · rfl
  · rfl

theorem State.pollSample_frame (s : State) (op : PollFor) :
    s.pollSample op = { s with
      R := (s.pollSample op).R, irqPhase := (s.pollSample op).irqPhase, results := (s.pollSample op).results } := by
  unfold State.pollSample
  split <;> rfl

theorem State.pollTake_frame (s : State) (op : PollFor) :
    s.pollTake op = { s with
      R := (s.pollTake op).R, irqPhase := (s.pollTake op).irqPhase, results := (s.pollTake op).results } := by
  cases op <;> rfl

theorem State.crtcData_frame (s : State) (v : Byte) :
    s.crtcData v = { s with ttStart := (s.crtcData v).ttStart, ttCursor := (s.crtcData v).ttCursor } := by
  unfold State.crtcData
  repeat' split
  all_goals rfl

theorem State.applyEvent_frame (s : State) (loc : Addr) (v : Byte) :
    s.applyEvent loc v = { s with
      afSlot := (s.applyEvent loc v).afSlot, afHead := (s.applyEvent loc v).afHead,
      ttCrtcIdx := (s.applyEvent loc v).ttCrtcIdx, ttStart := (s.applyEvent loc v).ttStart,
      ttCursor := (s.applyEvent loc v).ttCursor } := by
  unfold State.applyEvent
  split
  · unfold State.afPush; split <;> rfl
  · rfl
  · rw [State.crtcData_frame]
  · rfl

theorem State.deliver_frame (s : State) (loc : Addr) :
    s.deliver loc = { s with
      afSlot := (s.deliver loc).afSlot, afHead := (s.deliver loc).afHead, ttCrtcIdx := (s.deliver loc).ttCrtcIdx,
      ttStart := (s.deliver loc).ttStart, ttCursor := (s.deliver loc).ttCursor, irqPhase := .idle,
      results := (s.deliver loc).results } := by
  unfold State.deliver
  rw [State.applyEvent_frame]
  rfl

theorem State.irqAdvance_frame (s : State) :
    s.irqAdvance = { s with
      R := s.irqAdvance.R, irqPhase := s.irqAdvance.irqPhase, results := s.irqAdvance.results,
      afSlot := s.irqAdvance.afSlot, afHead := s.irqAdvance.afHead, ttCrtcIdx := s.irqAdvance.ttCrtcIdx,
      ttStart := s.irqAdvance.ttStart, ttCursor := s.irqAdvance.ttCursor } := by
  unfold State.irqAdvance
  split
  · rfl
  · rw [State.pollTake_frame]
  · rw [State.deliver_frame]

theorem State.commitLine_frame (s : State) (x : LineCtx) (rd : LineRead → Byte) :
    s.commitLine x rd = { s with
      rowBase := (s.commitLine x rd).rowBase, lineCount := (s.commitLine x rd).lineCount,
      lastMode := (s.commitLine x rd).lastMode, ttLowerNext := (s.commitLine x rd).ttLowerNext,
      ttLowerCur := (s.commitLine x rd).ttLowerCur } := by
  unfold State.commitLine
  split
  · unfold vdgCommit
    split
    · simp only
      split <;> rfl
    · rfl
  · unfold ttCommit
    split
    · simp only
      split <;> rfl
    · rfl
  · rfl

/-- No VDG line reads past the longest row. -/
theorem vdgVariant_stride_le (c : VdgCfg) (m : BitVec 4) : (vdgVariant c m).stride ≤ vdgLongestRow := by
  cases vdgVariant c m with
  | text => decide
  | border => decide
  | gfx g =>
    obtain ⟨h, b, d⟩ := g
    cases h <;> cases b <;> simp [VdgVariant.stride, Geometry.stride, HRes.pixels, Depth.bits, vdgLongestRow]

/-- The first shadow read of LINE takes the registers of the line scan. -/
@[simp] theorem State.scanCtx_nil (s : State) (x : LineCtx) :
    s.scanCtx x [] = { x with reveal := s.reveal, ttStart := s.ttStart, ttCursor := s.ttCursor } := rfl

/-- A later read keeps them. -/
@[simp] theorem State.scanCtx_cons (s : State) (x : LineCtx) (r : LineRead × Byte) (reads : List (LineRead × Byte)) :
    s.scanCtx x (r :: reads) = x := rfl

@[simp] theorem State.scanCtx_renderer (s : State) (x : LineCtx) (reads : List (LineRead × Byte)) :
    (s.scanCtx x reads).renderer = x.renderer := by cases reads <;> rfl

@[simp] theorem State.scanCtx_target (s : State) (x : LineCtx) (reads : List (LineRead × Byte)) :
    (s.scanCtx x reads).target = x.target := by cases reads <;> rfl

/-- In a step that no other agent interrupted, the registers are those of its first sub-action. -/
@[simp] theorem State.scanCtx_lineCtx (s : State) (r : Renderer) (t : Nat) (reads : List (LineRead × Byte)) :
    s.scanCtx (s.lineCtx r t) reads = s.lineCtx r t := by cases reads <;> rfl

theorem State.stepPop_frame (s : State) :
    s.stepPop = { s with
      rqTail := s.rqTail + 1#32, fc := s.stepPop.fc, rendererFrame := s.stepPop.rendererFrame,
      rendPhase := s.stepPop.rendPhase, writingSlot := s.stepPop.writingSlot } := by
  unfold State.stepPop
  split <;> rfl

theorem State.stepCommit_frame (s : State) (x : LineCtx) (rd : LineRead → Byte) :
    s.stepCommit x rd = { s with
      rowBase := (s.stepCommit x rd).rowBase, lineCount := (s.stepCommit x rd).lineCount,
      lastMode := (s.stepCommit x rd).lastMode, ttLowerNext := (s.stepCommit x rd).ttLowerNext,
      ttLowerCur := (s.stepCommit x rd).ttLowerCur, writingSlot := none, rendPhase := .idle } := by
  unfold State.stepCommit
  rw [State.commitLine_frame]

theorem State.drain_frame (s : State) (n : Nat) :
    s.drain n = { s with afTail := (s.drain n).afTail, synth := (s.drain n).synth } := by
  induction n generalizing s with
  | zero => rfl
  | succ n ih =>
    rw [show s.drain (n + 1) = s.applyEntry.drain n from rfl, ih s.applyEntry]
    rfl

theorem State.writeStatuses_frame (s : State) (i n : Nat) :
    s.writeStatuses i n = { s with shadow := (s.writeStatuses i n).shadow } := by
  induction n generalizing s i with
  | zero => rfl
  | succ n ih =>
    rw [show s.writeStatuses i (n + 1) = (s.writeStatus i).writeStatuses (i + 1) n from rfl, ih (s.writeStatus i)]
    rfl

theorem State.audioInit_frame (s : State) :
    s.audioInit = { s with
      perm := s.audioInit.perm, fatal := s.audioInit.fatal, synth := s.audioInit.synth,
      audioArmed := s.audioInit.audioArmed } := by
  unfold State.audioInit
  simp only
  split
  · rw [State.setPerm_frame]
  · split <;> (rw [State.setPerm_frame]; simp only; rw [State.setPerm_frame])

/-! ## The sequential reading of the runs -/

/-- In a canonical state the tags of a run are its cells' tags written one by one, in ascending order (R137). -/
theorem State.setTags_succ (s : State) (f : Perm) (base n : Nat)
    (h : Sparse.wfFrom Perm.tagNone 0 s.perm = true) :
    (s.setTag f base).setTags f (base + 1) n = s.setTags f base (n + 1) := by
  unfold State.setTags State.setTag
  simp only [List.replicate_succ, Sparse.splice_cons h]

end Sys2Proof.Machine
end

