-- ==== Sys2Proof/Laws/PerInstr.lean ====
section
/-! SUPPORT. The per-instruction family Encoding: the word of every operation lies in its row of the opcode table
(spec/opcode_table.json; 30_encoding.md R92). -/

namespace Sys2Proof.Laws.Encoding

/-- The encoded word matches the operation's own row of the opcode table. -/
def Statement (i : Instr) : Prop :=
  ∃ r, opcodeTable[i.tableIndex]? = some r ∧ encode i &&& r.mask = r.pattern

theorem busWr (addr : Addr) (data : Byte) : Statement (.busWr addr data) := by
  refine ⟨⟨"BUS_WR", 0x0100000000000000, 0xFFFFFF00FFFF0000⟩, rfl, ?_⟩
  rw [show (0xFFFFFF00FFFF0000 : Txn) = word 0xFF 0xFF 0xFF00 0xFFFF0000 by decide]
  simp only [encode, word_and]
  rw [setWidth_and_clear data _ (by decide), setWidth_and_clear addr _ (by decide)]
  decide

theorem busRd (addr : Addr) : Statement (.busRd addr) := by
  refine ⟨⟨"BUS_RD", 0x0200000000000000, 0xFFFFFFFFFFFF0000⟩, rfl, ?_⟩
  rw [show (0xFFFFFFFFFFFF0000 : Txn) = word 0xFF 0xFF 0xFFFF 0xFFFF0000 by decide]
  simp only [encode, word_and]
  rw [setWidth_and_clear addr _ (by decide)]
  decide

theorem capPause : Statement .capPause := ⟨_, rfl, by decide⟩

theorem capResume : Statement .capResume := ⟨_, rfl, by decide⟩

theorem setIrqEnable (v : Bool) : Statement (.setIrqEnable v) := ⟨_, rfl, by cases v <;> decide⟩

theorem setPerm (flags : Perm) (base : Addr) (len : BitVec 17) : Statement (.setPerm flags base len) := by
  refine ⟨⟨"SET_PERM", 0x1000000000000000, 0xFFF80000FFFE0000⟩, rfl, ?_⟩
  rw [show (0xFFF80000FFFE0000 : Txn) = word 0xFF 0xF8 0 0xFFFE0000 by decide]
  simp only [encode, word_and]
  rw [setWidth_and_clear flags _ (by decide), setWidth_and_clear len _ (by decide)]
  rw [show base &&& 0 = 0#16 from BitVec.and_zero]
  decide

theorem shadowRd (addr : Addr) : Statement (.shadowRd addr) := by
  refine ⟨⟨"SHADOW_RD", 0x1100000000000000, 0xFFFFFFFFFFFF0000⟩, rfl, ?_⟩
  rw [show (0xFFFFFFFFFFFF0000 : Txn) = word 0xFF 0xFF 0xFFFF 0xFFFF0000 by decide]
  simp only [encode, word_and]
  rw [setWidth_and_clear addr _ (by decide)]
  decide

theorem shadowWr (addr : Addr) (data : Byte) : Statement (.shadowWr addr data) := by
  refine ⟨⟨"SHADOW_WR", 0x1200000000000000, 0xFFFFFF00FFFF0000⟩, rfl, ?_⟩
  rw [show (0xFFFFFF00FFFF0000 : Txn) = word 0xFF 0xFF 0xFF00 0xFFFF0000 by decide]
  simp only [encode, word_and]
  rw [setWidth_and_clear data _ (by decide), setWidth_and_clear addr _ (by decide)]
  decide

theorem pollEvent : Statement .pollEvent := ⟨_, rfl, by decide⟩

theorem eventDispatch : Statement .eventDispatch := ⟨_, rfl, by decide⟩

theorem renderLine (line : Word32) : Statement (.renderLine line) := by
  refine ⟨⟨"RENDER_LINE", 0x3000000000000000, 0xFFFFFFFF00000000⟩, rfl, ?_⟩
  rw [show (0xFFFFFFFF00000000 : Txn) = word 0xFF 0xFF 0xFFFF 0 by decide]
  simp only [encode, word_and]
  rw [show line &&& 0 = 0#32 from BitVec.and_zero]
  decide

theorem renderLineVsync : Statement .renderLineVsync := ⟨_, rfl, by decide⟩

theorem renderStep : Statement .renderStep := ⟨_, rfl, by decide⟩

theorem poolRead (slot : Byte) (x : BitVec 16) : Statement (.poolRead slot x) := by
  refine ⟨⟨"POOL_READ", 0x3200000000000000, 0xFFFFFF00FFFF0000⟩, rfl, ?_⟩
  rw [show (0xFFFFFF00FFFF0000 : Txn) = word 0xFF 0xFF 0xFF00 0xFFFF0000 by decide]
  simp only [encode, word_and]
  rw [setWidth_and_clear slot _ (by decide), setWidth_and_clear x _ (by decide)]
  decide

theorem setRenderer (sel : BitVec 2) : Statement (.setRenderer sel) := by
  refine ⟨⟨"SET_RENDERER", 0x3300000000000000, 0xFFFCFFFFFFFFFFFF⟩, rfl, ?_⟩
  rw [show (0xFFFCFFFFFFFFFFFF : Txn) = word 0xFF 0xFC 0xFFFF 0xFFFFFFFF by decide]
  simp only [encode, word_and]
  rw [setWidth_and_clear sel _ (by decide)]
  decide

theorem setReveal (v : Bool) : Statement (.setReveal v) := ⟨_, rfl, by cases v <;> decide⟩

theorem audioInit : Statement .audioInit := ⟨_, rfl, by decide⟩

theorem audioTick : Statement .audioTick := ⟨_, rfl, by decide⟩

theorem audioReset : Statement .audioReset := ⟨_, rfl, by decide⟩

end Sys2Proof.Laws.Encoding
end

