-- ==== Sys2Proof/Laws/Rings.lean ====
section
/-! SUPPORT. Arithmetic of the rings and queues: powers of two, what a well-formed configuration gives, and the slot of a
free-running count. -/

namespace Sys2Proof

theorem isPow2_iff (n : Nat) : isPow2 n = true ↔ ∃ k, n = 2 ^ k := by
  unfold isPow2
  simp only [Bool.and_eq_true, bne_iff_ne, beq_iff_eq]
  constructor
  · rintro ⟨h, h2⟩
    exact (Nat.and_sub_one_eq_zero_iff_isPowerOfTwo h).1 h2
  · rintro ⟨k, rfl⟩
    exact ⟨by positivity, (Nat.and_sub_one_eq_zero_iff_isPowerOfTwo (by positivity)).2 ⟨k, rfl⟩⟩

/-- What a well-formed configuration gives (00_scope.md R8). -/
theorem Cfg.wf_iff (c : Cfg) : c.wf = true ↔
    (∃ k, c.evsCap = 2 ^ k ∧ k ≤ 31) ∧ (∃ k, c.rqCap = 2 ^ k) ∧ (∃ k, c.afifoCap = 2 ^ k) ∧
    (c.nPool = 2 ∨ c.nPool = 3 ∨ c.nPool = 4) ∧ c.frameLines % c.nPool = 0 ∧ c.nPool ≤ c.frameLines ∧
    (∃ k, c.tt.cursorPeriod = 2 ^ k ∧ k ≤ 32) ∧
    c.audio.base.toNat + c.audio.woLen + c.audio.roLen ≤ 65536 ∧ 1 ≤ c.audio.woLen := by
  have hp : ∀ n m : Nat, isPow2 n = true ∧ n ≤ 2 ^ m ↔ ∃ k, n = 2 ^ k ∧ k ≤ m := by
    intro n m
    rw [isPow2_iff]
    constructor
    · rintro ⟨⟨k, rfl⟩, h⟩; exact ⟨k, rfl, (Nat.pow_le_pow_iff_right (by omega)).1 h⟩
    · rintro ⟨k, rfl, h⟩; exact ⟨⟨k, rfl⟩, Nat.pow_le_pow_right (by omega) h⟩
  rw [← hp c.evsCap 31, ← hp c.tt.cursorPeriod 32, ← isPow2_iff c.rqCap, ← isPow2_iff c.afifoCap]
  unfold Cfg.wf Cfg.check Cfg.capacityFault Cfg.conditionFault Cfg.evsCapOk
  constructor
  · intro h
    split at h
    · simp at h
    · rename_i h1
      split at h
      · simp at h
      · rename_i h2
        repeat' split at h1
        all_goals first | (cases h1; done) | skip
        repeat' split at h2
        all_goals first | (cases h2; done) | skip
        simp_all [Config.window]
        omega
  · rintro ⟨⟨a1, a2⟩, b, c1, d, e, f, ⟨g1, g2⟩, i, j⟩
    have hj : (c.audio.woLen == 0) = false := by simp; omega
    have hi : ¬ Config.window < c.audio.base.toNat + c.audio.woLen + c.audio.roLen := by simp [Config.window]; omega
    have hd : (c.nPool == 2 || c.nPool == 3 || c.nPool == 4) = true := by rcases d with h | h | h <;> simp [h]
    have ha : ¬ 2147483648 < c.evsCap := by omega
    have hg : ¬ 4294967296 < c.tt.cursorPeriod := by omega
    simp [a1, ha, b, c1, hd, e, Nat.not_lt.2 f, g1, hg, hi, hj, Config.flashBlank, Config.flashPeriod]

end Sys2Proof

namespace Sys2Proof.Machine

/-- For a capacity that divides 2^32, the slot of a count `i` further on. -/
theorem slotOf_add {cap : Nat} (h : cap ∣ 2 ^ 32) (n : Word32) (i : Nat) :
    slotOf (n + BitVec.ofNat 32 i) cap = (n.toNat + i) % cap := by
  unfold slotOf
  rw [BitVec.toNat_add, BitVec.toNat_ofNat, Nat.add_mod_mod, Nat.mod_mod_of_dvd _ h]

/-- Two counts less than a power-of-two capacity apart have different slots. -/
theorem slotOf_add_ne {k : Nat} (n : Word32) {i j : Nat} (hi : i < 2 ^ k) (hj : j < 2 ^ k) (hi' : i < 2 ^ 32)
    (hj' : j < 2 ^ 32) (hne : i ≠ j) :
    slotOf (n + BitVec.ofNat 32 i) (2 ^ k) ≠ slotOf (n + BitVec.ofNat 32 j) (2 ^ k) := by
  by_cases hk : k ≤ 32
  · rw [slotOf_add (Nat.pow_dvd_pow 2 hk), slotOf_add (Nat.pow_dvd_pow 2 hk)]
    intro h
    have h1 : (i : ℕ) ≡ j [MOD 2 ^ k] := Nat.ModEq.add_left_cancel' n.toNat h
    exact hne (by have := h1; unfold Nat.ModEq at this; rwa [Nat.mod_eq_of_lt hi, Nat.mod_eq_of_lt hj] at this)
  · have hle : 2 ^ 32 ≤ 2 ^ k := Nat.pow_le_pow_right (by omega) (by omega)
    unfold slotOf
    rw [Nat.mod_eq_of_lt (by have := (n + BitVec.ofNat 32 i).isLt; omega),
      Nat.mod_eq_of_lt (by have := (n + BitVec.ofNat 32 j).isLt; omega)]
    intro h
    apply hne
    have h2 := BitVec.eq_of_toNat_eq h
    have h3 : BitVec.ofNat 32 i = BitVec.ofNat 32 j := by bv_omega
    have h4 := congrArg BitVec.toNat h3
    rwa [BitVec.toNat_ofNat, BitVec.toNat_ofNat, Nat.mod_eq_of_lt hi', Nat.mod_eq_of_lt hj'] at h4

end Sys2Proof.Machine
end

