-- ==== Sys2Proof/Laws/Step.lean ====
section
/-! SUPPORT. What exec, a first sub-action and a step can do, each said once: the provers cite these instead of unfolding the
dispatch and the schedule. -/

namespace Sys2Proof.Machine

/-! ## exec and beginOp as admission and effect -/

/-- The state an operation leaves when its issue goes ahead. -/
def effect (i : Instr) (s : State) : State :=
  match i with
  | .busWr addr data => s.capture addr data
  | .busRd addr => s.answer .bus (s.drive addr)
  | .capPause => { s with paused := true }
  | .capResume => { s with paused := false }
  | .setIrqEnable v => { s with irqEnabled := v }
  | .setPerm flags base len => s.setPerm flags base.toNat len.toNat
  | .shadowRd addr => s.answer .sw (.byte (s.readByte addr))
  | .shadowWr addr data => s.writeByte addr data
  | .pollEvent => (s.pollSample .poll).irqAdvance
  | .eventDispatch => (s.pollSample .dispatch).irqAdvance.irqAdvance
  | .renderLine line =>
    (s.rqPush (.line (BitVec.ofNat 32 (requestLine s.cfg line)))).answer .vid
      (.slot (some (requestLine s.cfg line % s.cfg.nPool)))
  | .renderLineVsync => (s.rqPush .vsync).answer .vid (.slot none)
  | .renderStep => s.stepPop.stepFinish
  | .poolRead slot x => s.answer .vid (.pixel (s.poolAt slot.toNat x.toNat))
  | .setRenderer sel => { s with rendererCfg := (rendererOf sel).getD s.rendererCfg }
  | .setReveal v => { s with reveal := v }
  | .audioInit => s.audioInit
  | .audioTick => s.tick
  | .audioReset => s.afPush ⟨0#8, Config.sentinel⟩

/-- Every meaning is an issue of its effect. -/
theorem exec_eq_issue (i : Instr) (s : State) : exec i s = issue (s.admission i) s (effect i s) := by
  cases i <;> rfl

/-- The state an operation's first sub-action leaves when its issue goes ahead. -/
def beginEffect (i : Instr) (s : State) : State :=
  match i with
  | .setPerm flags base len => s.fillStart flags base.toNat len.toNat .done
  | .audioInit => s.fillStart Perm.tagWrite s.cfg.audio.base.toNat s.cfg.audio.woLen .initRo
  | .pollEvent => s.pollSample .poll
  | .eventDispatch => s.pollSample .dispatch
  | .renderStep => s.stepPop
  | .audioTick => s.tickStart
  | .busWr _ _ | .busRd _ | .capPause | .capResume | .setIrqEnable _ | .shadowRd _ | .shadowWr _ _ | .renderLine _
  | .renderLineVsync | .poolRead _ _ | .setRenderer _ | .setReveal _ | .audioReset => effect i s

/-- Every first sub-action is an issue of its effect. -/
theorem beginOp_eq_issue (i : Instr) (s : State) : beginOp i s = issue (s.admission i) s (beginEffect i s) := by
  cases i <;> rfl

/-- An issue that is admitted leaves the operation's effect. -/
theorem exec_go {i : Instr} {s : State} (hf : s.fatal = none) (ha : s.admission i = .go) :
    exec i s = .next (effect i s) := by
  rw [exec_eq_issue, ha, issue_go hf]

theorem beginOp_go {i : Instr} {s : State} (hf : s.fatal = none) (ha : s.admission i = .go) :
    beginOp i s = .next (beginEffect i s) := by
  rw [beginOp_eq_issue, ha, issue_go hf]

/-- Outside the fatal state every operation answers a next state. -/
theorem exec_answers (i : Instr) {s : State} (hf : s.fatal = none) : ∃ t, exec i s = .next t := by
  rw [exec_eq_issue]
  cases s.admission i
  · exact ⟨_, issue_go hf⟩
  · exact ⟨_, issue_wait hf⟩
  · exact ⟨_, issue_refuse hf⟩

/-- The admission does not look at the environment. -/
theorem admission_env (s : State) (i : Instr) (p : Programs) (sch : List Slot) (b : Bool) :
    ({ s with sched := sch, progs := p, irqService := b } : State).admission i = s.admission i := by
  cases i <;> rfl

/-! ## The words -/

@[simp] theorem Programs.get_put (p : Programs) (a : Agent) (ws : List Txn) : (p.put a ws).get a = ws := by
  cases a <;> rfl

@[simp] theorem Programs.put_get (p : Programs) (a : Agent) : p.put a (p.get a) = p := by
  cases a <;> rfl

@[simp] theorem Programs.put_put (p : Programs) (a : Agent) (us ws : List Txn) : (p.put a us).put a ws = p.put a ws := by
  cases a <;> rfl

theorem State.nextWord_prog {s : State} {a : Agent} {w : Txn} {ws : List Txn} (h : a = .irq → s.irqService = false)
    (hp : s.progs.get a = w :: ws) : s.nextWord a = some w := by
  unfold State.nextWord
  split
  · simp_all
  · simp [hp]

theorem State.takeWord_prog {s : State} {a : Agent} {w : Txn} {ws : List Txn} (h : a = .irq → s.irqService = false)
    (hp : s.progs.get a = w :: ws) : s.takeWord a = { s with progs := s.progs.put a ws } := by
  unfold State.takeWord
  split
  · simp_all
  · simp [hp]

/-- Taking a word changes only the program and the handler's mark. -/
theorem State.takeWord_frame (s : State) (a : Agent) :
    s.takeWord a = { s with progs := (s.takeWord a).progs, irqService := (s.takeWord a).irqService } := by
  unfold State.takeWord
  split
  · split <;> rfl
  · rfl

/-! ## The step -/

theorem step_fatal {s : State} {c : FatalCode} (h : s.fatal = some c) : step s = .fault (.halted c) := by
  simp [step, schedStep, h]

theorem step_nil {s : State} (hf : s.fatal = none) (hs : s.sched = []) : step s = .next s := by
  simp [step, schedStep, hf, hs]

theorem step_cons {s : State} {slot : Slot} {rest : List Slot} (hf : s.fatal = none) (hs : s.sched = slot :: rest) :
    step s = State.move { s with sched := rest } slot.agent slot.move := by
  unfold step schedStep
  split
  · simp_all
  · split
    · simp_all
    · rename_i h; rw [hs] at h; cases h; rfl

/-- Everything the issue of an agent's next word can answer with a next state. -/
theorem State.issueNext_next {s t : State} {a : Agent} {run : Instr → State → Host.Outcome State Fault Refusal}
    (h : s.issueNext a run = .next t) :
    t = s ∨ (∃ why, t = (s.takeWord a).refuse why) ∨
      ∃ i, i.agent = a ∧ s.admission i ≠ .wait ∧ run i (s.takeWord a) = .next t := by
  unfold State.issueNext at h
  split at h
  · cases h; exact .inl rfl
  · split at h
    · cases h; exact .inr (.inl ⟨_, rfl⟩)
    · split at h
      · cases h; exact .inr (.inl ⟨_, rfl⟩)
      · rename_i i _ hi
        have hi : i.agent = a := by simpa using hi
        split at h
        · cases h; exact .inl rfl
        · rename_i ha; exact .inr (.inr ⟨i, hi, by simp [ha], h⟩)
        · rename_i ha; exact .inr (.inr ⟨i, hi, by simp [ha], h⟩)

/-- Everything a step can do: the state unchanged but for the schedule; a word refused; the effect of an operation, or of its
first sub-action, at the state with the word taken; a sub-action; or the interrupt taken. -/
inductive StepCase (s : State) (a : Agent) : State → Prop where
  | stay : StepCase s a s
  | refused (why : RefuseReason) : StepCase s a ((s.takeWord a).refuse why)
  | effect (i : Instr) (hi : i.agent = a) (ha : s.admission i = .go) : StepCase s a (effect i (s.takeWord a))
  | beginEffect (i : Instr) (hi : i.agent = a) (ha : s.admission i = .go) : StepCase s a (beginEffect i (s.takeWord a))
  | advance : StepCase s a (s.advance a)
  | read (r : LineRead) (h : a = .rend) : StepCase s a (s.rendRead r)
  | write (p : Nat) (h : a = .rend) : StepCase s a (s.rendWrite p)
  | takeIrq (h : a = .irq) : StepCase s a s.takeInterrupt

/-- Everything a move can answer with a next state. -/
theorem State.move_cases {s t : State} {a : Agent} {m : Move} (hf : s.fatal = none) (h : s.move a m = .next t) :
    StepCase s a t := by
  have hadm : ∀ i, (s.takeWord a).admission i = s.admission i := by
    intro i; rw [State.takeWord_frame]; exact admission_env s i _ s.sched _
  cases m with
  | issue =>
    rcases State.issueNext_next h with rfl | ⟨why, rfl⟩ | ⟨i, hi, hw, hx⟩
    · exact .stay
    · exact .refused why
    · rw [exec_eq_issue, hadm] at hx
      rcases (issue_next hx).2 with ⟨hg, rfl⟩ | ⟨hg, _⟩ | ⟨w, _, rfl⟩
      · exact .effect i hi hg
      · exact absurd hg hw
      · exact .refused w
  | start =>
    rcases State.issueNext_next h with rfl | ⟨why, rfl⟩ | ⟨i, hi, hw, hx⟩
    · exact .stay
    · exact .refused why
    · rw [beginOp_eq_issue, hadm] at hx
      rcases (issue_next hx).2 with ⟨hg, rfl⟩ | ⟨hg, _⟩ | ⟨w, _, rfl⟩
      · exact .beginEffect i hi hg
      · exact absurd hg hw
      · exact .refused w
  | advance => cases h; exact .advance
  | read r =>
    cases h
    split
    · rename_i ha; exact .read r ha
    · exact .stay
  | write p =>
    cases h
    split
    · rename_i ha; exact .write p ha
    · exact .stay
  | takeIrq =>
    cases h
    split
    · rename_i ha; exact .takeIrq ha
    · exact .stay

/-- The inversion of a step. -/
theorem step_cases {s t : State} (h : step s = .next t) :
    s.fatal = none ∧ ((s.sched = [] ∧ t = s) ∨
      ∃ slot rest, s.sched = slot :: rest ∧ StepCase { s with sched := rest } slot.agent t) := by
  have hf : s.fatal = none := by
    cases hf : s.fatal with
    | none => rfl
    | some c => rw [step_fatal hf] at h; cases h
  refine ⟨hf, ?_⟩
  cases hs : s.sched with
  | nil => rw [step_nil hf hs] at h; cases h; exact .inl ⟨rfl, rfl⟩
  | cons slot rest =>
    rw [step_cons hf hs] at h
    exact .inr ⟨slot, rest, rfl, State.move_cases hf h⟩

end Sys2Proof.Machine
end

