-- ==== Sys2Proof/Laws/Run.lean ====
section
/-! SUPPORT. What pushes and pops do to a queue read as a list, what a drain and a run of status writes leave, and how runs of
sub-actions compose. -/

namespace Sys2Proof.Machine

/-! ## Free-running counts -/

theorem index_of_head (h t : Word32) : t + BitVec.ofNat 32 (h - t).toNat = h := by bv_omega

theorem index_after_pop (t : Word32) (i : Nat) : t + 1#32 + BitVec.ofNat 32 i = t + BitVec.ofNat 32 (i + 1) := by
  apply BitVec.eq_of_toNat_eq
  simp only [BitVec.toNat_add, BitVec.toNat_ofNat]
  omega

/-- Below the capacity the slot of the next record is none of the slots in use. -/
theorem slot_ne_head (h t : Word32) {k i : Nat} (hi : i < (h - t).toNat) (hc : (h - t).toNat < 2 ^ k) :
    slotOf (t + BitVec.ofNat 32 i) (2 ^ k) ≠ slotOf h (2 ^ k) := by
  have := slotOf_add_ne t (k := k) (i := i) (j := (h - t).toNat) (by omega) hc (by omega) (by omega) (by omega)
  rwa [index_of_head] at this

/-! ## Queues -/

/-- A push below the capacity appends to the list of slots in use. -/
theorem ring_push {α : Type} [DecidableEq α] (d : α) (m : List (Nat × α)) (h t : Word32) (k : Nat) (x : α)
    (hc : (h - t).toNat < 2 ^ k) (hw : (h - t).toNat + 1 < 2 ^ 32) :
    ((List.range (h + 1#32 - t).toNat).map fun i =>
        Sparse.get d (Sparse.set d m (slotOf h (2 ^ k)) x) (slotOf (t + BitVec.ofNat 32 i) (2 ^ k))) =
      ((List.range (h - t).toNat).map fun i => Sparse.get d m (slotOf (t + BitVec.ofNat 32 i) (2 ^ k))) ++ [x] := by
  have hs : (h + 1#32 - t).toNat = (h - t).toNat + 1 := by bv_omega
  rw [hs, List.range_succ, List.map_append]
  congr 1
  · refine List.map_congr_left fun i hi => ?_
    rw [Sparse.get_set, if_neg (slot_ne_head h t (List.mem_range.1 hi) hc)]
  · simp only [List.map_cons, List.map_nil]
    rw [index_of_head, Sparse.get_set, if_pos rfl]

/-- A pop takes the first of the slots in use. -/
theorem ring_pop {α : Type} (f : Word32 → α) (h t : Word32) (x : α) (xs : List α)
    (hl : ((List.range (h - t).toNat).map fun i => f (t + BitVec.ofNat 32 i)) = x :: xs) :
    f t = x ∧ ((List.range (h - (t + 1#32)).toNat).map fun i => f (t + 1#32 + BitVec.ofNat 32 i)) = xs := by
  cases hn : (h - t).toNat with
  | zero => rw [hn] at hl; simp at hl
  | succ n =>
    rw [hn, List.range_succ_eq_map] at hl
    simp only [List.map_cons, List.map_map, List.cons.injEq] at hl
    refine ⟨by rw [← hl.1]; simp, ?_⟩
    have hp : (h - (t + 1#32)).toNat = n := by bv_omega
    rw [hp, ← hl.2]
    exact List.map_congr_left fun i _ => by simp [index_after_pop]

/-! ## Runs of sub-actions -/

theorem State.advanceN_add (s : State) (a : Agent) (m n : Nat) :
    s.advanceN a (m + n) = (s.advanceN a m).advanceN a n := by
  induction m generalizing s with
  | zero => simp [State.advanceN]
  | succ m ih => rw [Nat.succ_add]; exact ih (s.advance a)

/-! ## The tick -/

/-- `n` entries applied: the tail moves on by `n`, the synthesizer takes them oldest first. -/
theorem State.drain_eq (n : Nat) (s : State) :
    s.drain n = { s with
      afTail := s.afTail + BitVec.ofNat 32 n,
      synth := ((List.range n).map fun i => s.afSlotAt (s.afTail + BitVec.ofNat 32 i)).foldl synthApply s.synth } := by
  induction n generalizing s with
  | zero => simp [State.drain]
  | succ n ih =>
    simp only [State.drain]
    rw [ih, List.range_succ_eq_map]
    simp only [List.map_cons, List.foldl_cons, List.map_map, State.applyEntry, State.afPop, index_after_pop]
    congr 2
    simp [State.afTop]

/-- The status bytes `i .. i + n - 1` written back, inside the window: each cell of the run holds its byte, no other cell has
changed. -/
theorem State.readByte_writeStatuses (n i : Nat) (s : State)
    (hb : s.cfg.audio.base.toNat + s.cfg.audio.woLen + (i + n) ≤ 65536) :
    (∀ j, i ≤ j → j < i + n →
      (s.writeStatuses i n).readByte (statusAddr s.cfg j) = Config.synthStatus s.synth j) ∧
    (∀ a, (∀ j, i ≤ j → j < i + n → a ≠ statusAddr s.cfg j) → (s.writeStatuses i n).readByte a = s.readByte a) := by
  have hA : ∀ j, j < i + n → (statusAddr s.cfg j).toNat = s.cfg.audio.base.toNat + s.cfg.audio.woLen + j := by
    intro j hj
    simp only [statusAddr, BitVec.toNat_add, BitVec.toNat_ofNat]
    omega
  induction n generalizing s i with
  | zero => exact ⟨fun j h1 h2 => by omega, fun a _ => rfl⟩
  | succ n ih =>
    simp only [State.writeStatuses]
    obtain ⟨a1, a2⟩ := ih (i + 1) (s.writeStatus i)
      (by show s.cfg.audio.base.toNat + s.cfg.audio.woLen + (i + 1 + n) ≤ 65536; omega)
      (by intro j hj; exact hA j (by omega))
    refine ⟨fun j h1 h2 => ?_, fun a h => ?_⟩
    · by_cases hj : j = i
      · subst hj
        have := a2 (statusAddr s.cfg j) (by
          intro j' h3 h4 h5
          have e1 := hA j (by omega)
          have e2 := hA j' (by omega)
          have h5 : statusAddr s.cfg j = statusAddr s.cfg j' := h5
          rw [h5] at e1; omega)
        rw [this]
        simp only [State.writeStatus, State.readByte_writeByte, if_true]
      · exact a1 j (by omega) (by omega)
    · rw [a2 a (fun j h1 h2 => h j (by omega) (by omega))]
      simp only [State.writeStatus, State.readByte_writeByte]
      rw [if_neg (h i (by omega) (by omega))]

/-- Where the tick stands has no part in what its writes leave. -/
theorem State.writeStatuses_audPhase (n i : Nat) (s : State) (ph : AudPhase) :
    ({ s with audPhase := ph } : State).writeStatuses i n = { s.writeStatuses i n with audPhase := ph } := by
  induction n generalizing s i with
  | zero => rfl
  | succ n ih => exact ih (i + 1) (s.writeStatus i)

/-- The drain's sub-actions. -/
theorem State.advanceN_draining (n : Nat) (s : State) (hn : 0 < n) (h : s.audPhase = .draining n) :
    s.advanceN .aud n = { s.drain n with audPhase := .clocking } := by
  induction n generalizing s with
  | zero => omega
  | succ n ih =>
    simp only [State.advanceN, State.advance, State.audAdvance, h, State.drain]
    by_cases h0 : n = 0
    · subst h0; simp [State.advanceN, State.drain]
    · rw [if_neg (by omega)]
      simp only [Nat.add_sub_cancel]
      rw [ih _ (by omega) rfl, State.drain_eq, State.drain_eq]
      rfl

/-- The status bytes' sub-actions. -/
theorem State.advanceN_status (n i : Nat) (s : State) (hr : i + n = s.cfg.audio.roLen)
    (h : s.audPhase = statusPhase s.cfg i) :
    s.advanceN .aud n = { s.writeStatuses i n with audPhase := .idle } := by
  induction n generalizing s i with
  | zero =>
    have : s.audPhase = .idle := by rw [h]; unfold statusPhase; rw [if_neg (by omega)]
    simp only [State.advanceN, State.writeStatuses]
    rw [← this]
  | succ n ih =>
    have h' : s.audPhase = .status i := by rw [h]; unfold statusPhase; rw [if_pos (by omega)]
    simp only [State.advanceN, State.advance, State.audAdvance, h', State.writeStatuses]
    rw [ih (i + 1) _ (by show i + 1 + n = s.cfg.audio.roLen; omega) rfl, State.writeStatuses_audPhase]

end Sys2Proof.Machine
end

