-- ==== Sys2Proof/Machine/Asm.lean ====
section
/-! DEFINITION. The assembler syntax (30_encoding.md R102, R103): one operation per line, an optional agent prefix, operands
separated by commas, numbers in decimal or 0x hexadecimal, `;` starts a comment. -/

namespace Sys2Proof.Machine

/-- What a line of assembly names: an operation, or one of the two pseudo-operations that are loops. -/
inductive AsmOp where
  | op (i : Instr)
  | irqService
  | renderAll
  deriving DecidableEq, Repr

/-- A token of a line. -/
inductive AsmToken where
  | word (w : List Char)
  | comma
  | colon
  deriving DecidableEq, Repr

/-- The word read so far, if any, before the rest. -/
def asmFlush (acc : List Char) (rest : List AsmToken) : List AsmToken :=
  if acc = [] then rest else .word acc.reverse :: rest

/-- The tokens of a line; `acc` is the current word, reversed. -/
def asmLex : List Char → List Char → List AsmToken
  | [], acc => asmFlush acc []
  | c :: cs, acc =>
    if c = ';' then asmFlush acc []
    else if c = ',' then asmFlush acc (.comma :: asmLex cs [])
    else if c = ':' then asmFlush acc (.colon :: asmLex cs [])
    else if c = ' ' || c = '\t' then asmFlush acc (asmLex cs [])
    else asmLex cs (c :: acc)

/-- The value of a digit in base 16. -/
def hexDigit (c : Char) : Option Nat :=
  if '0' ≤ c && c ≤ '9' then some (c.toNat - 48)
  else if 'a' ≤ c && c ≤ 'f' then some (c.toNat - 87)
  else if 'A' ≤ c && c ≤ 'F' then some (c.toNat - 55)
  else none

/-- The number the digits spell in a base, after a prefix of value `acc`. -/
def asmDigits (base : Nat) : List Char → Nat → Option Nat
  | [], acc => some acc
  | c :: cs, acc =>
    match hexDigit c with
    | none => none
    | some d => if d < base then asmDigits base cs (acc * base + d) else none

/-- A number in decimal or 0x hexadecimal (30_encoding.md R102). -/
def asmNumber : List Char → Option Nat
  | [] => none
  | '0' :: 'x' :: [] => none
  | '0' :: 'x' :: cs => asmDigits 16 cs 0
  | cs => asmDigits 10 cs 0

/-- A number that fits in `n` bits. R102 does not say what a line means whose number does not fit its operand's field; here it
spells no operation (DESIGN CHOICE, log 23). -/
def asmBits (n : Nat) (w : List Char) : Option (BitVec n) :=
  match asmNumber w with
  | none => none
  | some v => if v < 2 ^ n then some (BitVec.ofNat n v) else none

/-- A one-bit value; a number other than 0 and 1 spells none (DESIGN CHOICE, log 23). -/
def asmFlag (w : List Char) : Option Bool :=
  match asmNumber w with
  | some 0 => some false
  | some 1 => some true
  | _ => none

/-- The tag names of `set_perm` (30_encoding.md R102). -/
def asmTag (w : List Char) : Option Perm :=
  if w = "none".toList then some 0b000#3
  else if w = "r".toList then some 0b001#3
  else if w = "w".toList then some 0b010#3
  else if w = "rw".toList then some 0b011#3
  else if w = "s".toList then some 0b100#3
  else if w = "rs".toList then some 0b101#3
  else if w = "ws".toList then some 0b110#3
  else if w = "rws".toList then some 0b111#3
  else none

/-- The renderer names of `set_renderer` (30_encoding.md R102). -/
def asmSelector (w : List Char) : Option (BitVec 2) :=
  if w = "vdg".toList then some 0#2
  else if w = "teletext".toList then some 1#2
  else if w = "attr80".toList then some 2#2
  else none

/-- The agent names of the prefix (30_encoding.md R102, 00_scope.md R6). -/
def asmAgent (w : List Char) : Option Agent :=
  if w = "BUS".toList then some .bus
  else if w = "SW".toList then some .sw
  else if w = "IRQ".toList then some .irq
  else if w = "REND".toList then some .rend
  else if w = "VID".toList then some .vid
  else if w = "AUD".toList then some .aud
  else none

/-- The operand words of a line, separated by commas. -/
def asmOperands : List AsmToken → Option (List (List Char))
  | [] => some []
  | [.word w] => some [w]
  | .word w :: .comma :: rest =>
    match asmOperands rest with
    | some (v :: vs) => some (w :: v :: vs)
    | _ => none
  | _ => none

/-- An operation of one 16-bit address. -/
def asmAddr (f : Addr → Instr) (args : List (List Char)) : Option AsmOp :=
  match args with
  | [a] => (asmBits 16 a).map fun addr => .op (f addr)
  | _ => none

/-- An operation of a 16-bit address and a byte. -/
def asmAddrData (f : Addr → Byte → Instr) (args : List (List Char)) : Option AsmOp :=
  match args with
  | [a, d] => (asmBits 16 a).bind fun addr => (asmBits 8 d).map fun data => .op (f addr data)
  | _ => none

/-- An operation of a one-bit value. -/
def asmV (f : Bool → Instr) (args : List (List Char)) : Option AsmOp :=
  match args with
  | [v] => (asmFlag v).map fun b => .op (f b)
  | _ => none

/-- An operation without operands. -/
def asmPlain (o : AsmOp) (args : List (List Char)) : Option AsmOp := if args = [] then some o else none

/-- The operation a mnemonic and its operands spell (30_encoding.md R102, R103). -/
def asmInstr (m : List Char) (args : List (List Char)) : Option AsmOp :=
  if m = "bus_wr".toList then asmAddrData .busWr args
  else if m = "bus_rd".toList then asmAddr .busRd args
  else if m = "cap_pause".toList then asmPlain (.op .capPause) args
  else if m = "cap_resume".toList then asmPlain (.op .capResume) args
  else if m = "set_irq_enable".toList then asmV .setIrqEnable args
  else if m = "set_perm".toList then
    match args with
    | [b, l, t] =>
      (asmBits 16 b).bind fun base => (asmBits 17 l).bind fun len => (asmTag t).map fun tag => .op (.setPerm tag base len)
    | _ => none
  else if m = "set_perm_none".toList then
    match args with
    | [b, l] => (asmBits 16 b).bind fun base => (asmBits 17 l).map fun len => .op (setPermNone base len)
    | _ => none
  else if m = "shadow_rd".toList then asmAddr .shadowRd args
  else if m = "shadow_wr".toList then asmAddrData .shadowWr args
  else if m = "poll_event".toList then asmPlain (.op .pollEvent) args
  else if m = "event_dispatch".toList then asmPlain (.op .eventDispatch) args
  else if m = "render_line".toList then
    match args with
    | [n] => if n = "vsync".toList then some (.op renderVsync) else (asmBits 32 n).map fun line => .op (.renderLine line)
    | _ => none
  else if m = "render_vsync".toList then asmPlain (.op renderVsync) args
  else if m = "render_step".toList then asmPlain (.op .renderStep) args
  else if m = "pool_read".toList then
    match args with
    | [s, x] => (asmBits 8 s).bind fun slot => (asmBits 16 x).map fun px => .op (.poolRead slot px)
    | _ => none
  else if m = "set_renderer".toList then
    match args with
    | [r] => (asmSelector r).map fun sel => .op (.setRenderer sel)
    | _ => none
  else if m = "set_reveal".toList then asmV .setReveal args
  else if m = "audio_init".toList then asmPlain (.op .audioInit) args
  else if m = "audio_tick".toList then asmPlain (.op .audioTick) args
  else if m = "audio_reset".toList then asmPlain (.op .audioReset) args
  else if m = "irq_service".toList then asmPlain .irqService args
  else if m = "render_all".toList then asmPlain .renderAll args
  else none

/-- The operation the tokens of a line spell, after its prefix. -/
def asmBody : List AsmToken → Option AsmOp
  | .word m :: rest => (asmOperands rest).bind (asmInstr m)
  | _ => none

/-- One line of assembly: the issuing agent its prefix names, if it has one, and the operation (30_encoding.md R102). -/
def assemble (line : String) : Option (Option Agent × AsmOp) :=
  match asmLex line.toList [] with
  | .word a :: .colon :: rest => (asmAgent a).bind fun ag => (asmBody rest).map fun o => (some ag, o)
  | ts => (asmBody ts).map fun o => (none, o)

end Sys2Proof.Machine
end

