-- ==== Sys2Proof/Tests/Slice0.lean ====
section
/-! SUPPORT. The model's own tests: expected values are the spec's (95_test_vectors.md, by vector id, or the rule named), and
one witness per statement of Certificates/Slice0/Obligations.lean that has hypotheses, by clause. -/

namespace Sys2Proof.Tests

open Sys2Proof.Machine

/-! ## WellFormed -/

/-- The one ill-formed term, which the check refuses (30_encoding.md R93). -/
theorem test_wellFormed_refuses_sel3 : (Instr.setRenderer 3#2).wellFormed = false := by decide

theorem test_wellFormed_admits_sel2 : (Instr.setRenderer 2#2).wellFormed = true := by decide

/-! ## Decoding: the words of 95_test_vectors.md section 2.1 -/

theorem test_decode_bus_wr : decode 0x0100004100008000 = .op (.busWr 0x8000 0x41) := by decide
theorem test_decode_bus_rd : decode 0x020000000000FFFF = .op (.busRd 0xFFFF) := by decide
theorem test_decode_cap_pause : decode 0x0300000000000000 = .op .capPause := by decide
theorem test_decode_cap_resume : decode 0x0400000000000000 = .op .capResume := by decide
theorem test_decode_set_irq_enable : decode 0x0501000000000000 = .op (.setIrqEnable true) := by decide
theorem test_decode_set_perm : decode 0x1005BDC000000019 = .op (.setPerm 0b101 0xBDC0 25) := by decide
theorem test_decode_set_perm_len : decode 0x1002000000010000 = .op (.setPerm 0b010 0 65536) := by decide
theorem test_decode_shadow_rd : decode 0x1100000000008000 = .op (.shadowRd 0x8000) := by decide
theorem test_decode_shadow_wr : decode 0x120000FF0000FFFF = .op (.shadowWr 0xFFFF 0xFF) := by decide
theorem test_decode_poll_event : decode 0x2000000000000000 = .op .pollEvent := by decide
theorem test_decode_event_dispatch : decode 0x2100000000000000 = .op .eventDispatch := by decide
theorem test_decode_render_line : decode 0x30000000FFFFFFFF = .op (.renderLine 0xFFFFFFFF) := by decide
theorem test_decode_render_line_vsync : decode 0x3001000000000000 = .op .renderLineVsync := by decide
theorem test_decode_render_step : decode 0x3100000000000000 = .op .renderStep := by decide
theorem test_decode_pool_read : decode 0x3200000300000005 = .op (.poolRead 3 5) := by decide
theorem test_decode_set_renderer : decode 0x3302000000000000 = .op (.setRenderer 2) := by decide
theorem test_decode_set_reveal : decode 0x3401000000000000 = .op (.setReveal true) := by decide
theorem test_decode_audio_init : decode 0x4000000000000000 = .op .audioInit := by decide
theorem test_decode_audio_tick : decode 0x4100000000000000 = .op .audioTick := by decide
theorem test_decode_audio_reset : decode 0x4200000000000000 = .op .audioReset := by decide

/-- The section's words with a must-be-zero bit set. -/
theorem test_decode_mustBeZero : [0x0100010000008000#64, 0x0101000000008000, 0x0100004100018000, 0x0502000000000000,
    0x1008000000000001, 0x1002000000020000, 0x1100000000018000, 0x3001000000000005, 0x3000000100000000].map decode =
    List.replicate 9 (.invalid .mustBeZero) := by rfl

/-- The section's words with a reserved OP value. -/
theorem test_decode_reservedOp : decode 0x0000000000000000 = .invalid .reservedOp ∧
    decode 0x0600000000000000 = .invalid .reservedOp ∧ decode 0x1300000000000000 = .invalid .reservedOp ∧
    decode 0x3500000000000000 = .invalid .reservedOp ∧ decode 0xFF00000000000000 = .invalid .reservedOp :=
  ⟨rfl, rfl, rfl, rfl, rfl⟩

theorem test_decode_sel3 : decode 0x3303000000000000 = .invalid .reservedSelector := by decide

/-- Some word is covered by both rows. -/
def overlap (i j : Nat) : Bool :=
  match opcodeTable[i]?, opcodeTable[j]? with
  | some r, some q => r.pattern &&& q.mask == q.pattern &&& r.mask
  | _, _ => true

/-- No two rows of the opcode table cover one word. -/
theorem test_table_disjoint : (List.range 19).all (fun i => (List.range i).all fun j => !overlap i j) = true := by decide

/-- The words of the programs of 95_test_vectors.md part 3, by the encoder. -/
theorem test_encode_programs : encode (.setPerm 0b010 0x8000 0x200) = 0x1002800000000200 ∧
    encode (.busWr 0xBDC4 0x21) = 0x010000210000BDC4 ∧ encode (.poolRead 0 22) = 0x3200000000000016 ∧
    encode (.renderLine 239) = 0x30000000000000EF ∧ encode (.shadowWr 0x8001 0x81) = 0x1200008100008001 := by decide

/-- The host's question on a row's word. -/
theorem test_decodeTableWord : decodeTableWord 64 0x2100000000000000 = some .eventDispatch ∧
    decodeTableWord 64 0x3303000000000000 = none := by decide

/-! ## The assembler (30_encoding.md R102, R103) -/

theorem test_assemble_prefix : assemble "BUS: bus_wr 0x8000, 0x41 ; capture" = some (some .bus, .op (.busWr 0x8000 0x41)) := by
  decide
theorem test_assemble_set_perm : assemble "set_perm 0xBDC0, 25, rs" = some (none, .op (.setPerm 0b101 0xBDC0 25)) := by
  decide
theorem test_assemble_pseudo : assemble "irq_service" = some (none, .irqService) ∧
    assemble "render_vsync" = some (none, .op .renderLineVsync) := by decide

/-! ## Small states -/

/-- TC0 with sixteen pixels a line: one VDG text column. -/
def cfg16 : Cfg := { Cfg.tc0 with linePixels := 16 }

/-- Reset under `cfg16` with the interrupt enabled and the timer armed. -/
def ready : State := { State.reset with cfg := cfg16, fatal := none, irqEnabled := true, audioArmed := true }

/-- The next state of an outcome. -/
def nextOf (o : Host.Outcome State Fault Refusal) : Option State :=
  match o with
  | .next t => some t
  | .fault _ => none
  | .refused _ => none

/-- A projection of the state an operation leaves. -/
def see {α : Type} (i : Instr) (s : State) (f : State → α) : Option α := (nextOf (exec i s)).map f

/-- A state with one tag set. -/
def tagged (p : Perm) (a : Nat) : State := ready.setTag p a

/-- A state with a run of records. -/
def ring (w r : Word32) (slots : List (Nat × Addr)) : State := { ready with W := w, R := r, evbuf := slots }

/-- A state with one token queued. -/
def queued (t : Token) : State := ready.rqPush t

/-- A state with entries queued. -/
def fifo (es : List Entry) : State := es.foldl State.afPush ready

/-! ## The bus side (95_test_vectors.md W1, S1-S8) -/

theorem test_bus_wr_captures :
    see (.busWr 0x8000 0x41) (tagged 0b010 0x8000) (fun t => (t.readByte 0x8000, t.W, t.evSlot 0)) =
      some (0x41, 1, 0x8000) := by decide
theorem test_bus_wr_read_only :
    see (.busWr 0xBDD9 0x55) (tagged 0b001 0xBDD9) (fun t => (t.readByte 0xBDD9, t.W)) = some (0, 0) := by decide
theorem test_bus_rd_driven : see (.busRd 0xBDD9) ((tagged 0b001 0xBDD9).writeByte 0xBDD9 0x7F) State.results =
    some [(.bus, .driven 0x7F)] := by decide
theorem test_bus_rd_write_only : see (.busRd 0x8000) (tagged 0b010 0x8000) State.results =
    some [(.bus, .notDriven)] := by decide
theorem test_cap_pause_freezes : see (.busWr 0x8000 0x55) { tagged 0b010 0x8000 with paused := true }
    (fun t => (t.readByte 0x8000, t.W)) = some (0, 0) := by decide
theorem test_cap_pause : see .capPause ready State.paused = some true := by decide
theorem test_cap_resume : see .capResume { ready with paused := true } State.paused = some false := by decide

/-! ## SW's operations -/

theorem test_set_irq_enable : see (.setIrqEnable false) ready State.irqEnabled = some false := by decide
theorem test_set_perm_range : see (.setPerm 0b010 0xBDC0 25) ready
    (fun t => [0xBDBF#16, 0xBDC0, 0xBDD8, 0xBDD9].map t.permAt) = some [0b000, 0b010, 0b010, 0b000] := by decide
/-- X2: the range passes the end of the window by one; no tag is written. -/
theorem test_set_perm_fatal : see (.setPerm 0b010 0x0001 65536) ready (fun t => (t.fatal, t.perm)) =
    some (some (.permRange 1 65536), []) := by decide
theorem test_shadow_rd : see (.shadowRd 0x8000) (ready.writeByte 0x8000 0x41) State.results =
    some [(.sw, .byte 0x41)] := by decide
/-- W9: a seeded banner byte on a cell tagged none raises no record. -/
theorem test_shadow_wr : see (.shadowWr 0x8000 0x20) ready (fun t => (t.readByte 0x8000, t.W)) = some (0x20, 0) := by decide
theorem test_set_renderer : see (.setRenderer 1#2) ready (fun t => (t.rendererCfg, t.rendererFrame)) =
    some (.teletext, .vdg) := by decide
theorem test_set_reveal : see (.setReveal true) ready State.reveal = some true := by decide
theorem test_audio_init_tags : see .audioInit { ready with audioArmed := false }
    (fun t => ([0xBDBF#16, 0xBDC0, 0xBDD8, 0xBDD9, 0xBDDC, 0xBDDD].map t.permAt, t.audioArmed)) =
    some ([0b000, 0b010, 0b010, 0b001, 0b001, 0b000], true) := by decide

/-! ## The EventStream and the dispatch -/

/-- 41_eventstream.md R164's example: C = 4, W = 2, R = 0. -/
theorem test_poll_event : see .pollEvent (ring 2 0 [(0, 0x8000), (1, 0xBDC0)]) (fun t => (t.R, t.results)) =
    some (1, [(.irq, .polled (some 0x8000))]) := by decide
/-- P4 step 9: six records into four slots. -/
theorem test_poll_event_overflow : see .pollEvent (ring 6 0 [(0, 4), (1, 5), (2, 2), (3, 3)]) (fun t => (t.R, t.results)) =
    some (3, [(.irq, .polled (some 2))]) := by decide
/-- A18: one record for 0xBDC4 whose cell holds 0x21. -/
theorem test_event_dispatch_audio : see .eventDispatch ((ring 1 0 [(0, 0xBDC4)]).writeByte 0xBDC4 0x21)
    (fun t => (t.afEntries, t.results)) = some ([⟨4, 0x21⟩], [(.irq, .handled 0xBDC4 .audio)]) := by decide
/-- T39: the cursor's low half. -/
theorem test_event_dispatch_crtc : see .eventDispatch
    { (ring 1 0 [(0, 0x0E01)]).writeByte 0x0E01 0x05 with ttCrtcIdx := 15, ttCursor := 0xAB00 } State.ttCursor =
    some 0xAB05 := by decide

/-! ## The pipeline -/

/-- 0xFFFFFFFF reduces to line 15 under TC0 (section 2.1), whose slot is 1. -/
theorem test_render_line : see (.renderLine 0xFFFFFFFF) ready (fun t => (t.rqTokens, t.results)) =
    some ([.line 15], [(.vid, .slot (some 1))]) := by decide
theorem test_render_line_vsync : see .renderLineVsync ready (fun t => (t.rqTokens, t.results)) =
    some ([.vsync], [(.vid, .slot none)]) := by decide
/-- W8: 'A' (glyph row 0 is 0x18) in column 0 of line 0; TEXT_FG is 2 and TEXT_BG 1 here. -/
theorem test_render_step_text : see .renderStep ((queued (.line 239)).writeByte 0x8000 0x01)
    (fun t => ((List.range 16).map (t.poolAt 0), t.lineCount)) =
    some ([1, 1, 1, 1, 1, 1, 2, 2, 2, 2, 1, 1, 1, 1, 1, 1], 1) := by decide
theorem test_render_step_vsync : see .renderStep { queued .vsync with fc := 0xFFFFFFFF } (fun t => (t.fc, t.rqTail)) =
    some (0, 1) := by decide
theorem test_pool_read : see (.poolRead 1 15) (ready.writePixel 1 15 0x2A) State.results =
    some [(.vid, .pixel 0x2A)] := by decide
theorem test_pool_read_outside : see (.poolRead 2 0) ready (fun t => (t.refused, t.results)) = some (true, []) := by decide

/-! ## The audio consumer -/

/-- A8. -/
theorem test_audio_reset : see .audioReset ready State.afEntries = some [⟨0, 0x100⟩] := by decide
/-- A12, A13: every entry present is taken; no entry of the synthesizer's own state is looked at. -/
theorem test_audio_tick : see .audioTick (fifo [⟨4, 0x11⟩, ⟨0, 0x100⟩, ⟨5, 0x22⟩]) (fun t => (t.afTail, t.audPhase)) =
    some (3, .idle) := by decide

/-! ## The step -/

/-- A set_perm of sixteen cells, placed and run by one step from reset. -/
theorem test_step_fetches : (nextOf (step (State.reset.withFetchWord 64 0x1002800000000010))).map
    (fun t => (t.permAt 0x800F, t.progs.sw, t.sched)) = some (0b010, [], []) := by decide
/-- X10: an Invalid word is refused. -/
theorem test_step_refuses_invalid : (nextOf (step (State.reset.withFetchWord 64 0x0600000000000000))).map State.refused =
    some true := by decide
/-- X11: `SW: render_step`. -/
theorem test_step_wrong_agent : (nextOf (step (ready.placeWord .sw 0x3100000000000000))).map State.refused =
    some true := by decide
/-- X5, X6, X7, X8: the configuration check. -/
theorem test_check : { Cfg.tc0 with rqCap := 3, afifoCap := 6 }.check = some (.capacity .rq) ∧
    { Cfg.tc0 with nPool := 5 }.check = some (.config .nPoolRange) ∧
    { Cfg.tc0 with frameLines := 241 }.check = some (.config .frameLinesMultiple) ∧ Cfg.tc0.check = none := by decide

/-! ## Witnesses: states and operands that meet the hypotheses of a statement, clause by clause -/

/-- A step in progress for target line `n`, nothing read and nothing written yet. -/
def rendering (r : Renderer) (n : Nat) : State :=
  { ready with rendPhase := .rendering (ready.lineCtx r n) (n % 2) [] [], writingSlot := some (n % 2) }

/-- R195, R305, R306: SET_REVEAL and a start address written between a step's sub-action (1) and the line's first read are the
line's. -/
theorem test_set_reveal_before_the_scan :
    ({ rendering .teletext 0 with reveal := true, ttStart := 40 }.rendRead (.cell 0)).rendPhase =
      .rendering { ready.lineCtx .teletext 0 with reveal := true, ttStart := 40 } 0 [(.cell 0, 0)] [] := by decide

/-- A poll between its sub-actions. -/
def polling : State := { ring 1 0 [(0, 0x8000)] with irqPhase := .polling 1 .poll }

theorem witness_DecodeEncodeRoundTrip : (Instr.setPerm 0b111 0xFFFF 0x1FFFF).wellFormed = true ∧
    (Instr.setRenderer 2#2).wellFormed = true := by decide

theorem witness_DecodedWordIsTheEncodedWord : decode 0x1007FFFF0001FFFF = .op (.setPerm 0b111 0xFFFF 0x1FFFF) := by decide

theorem witness_DecoderAgreesWithOpcodeTable :
    decode 0x3302000000000000 = .op (.setRenderer 2) ∧
    (∃ r ∈ opcodeTable, r.covers 0x3303000000000000 = true ∧ r.mnemonic = "SET_RENDERER") ∧
    (∃ r ∈ opcodeTable, r.covers 0x3001000000000000 = true ∧ r.mnemonic = "RENDER_LINE_VSYNC") := by decide

theorem witness_WordsThatSpellNoOperation_reserved : ∀ n ∈ [0x0000000000000000, 0x06FFFFFFFFFFFFFF, 0x4300000000000000],
    (opField (BitVec.ofNat 64 n)).toNat ∉ [0x01, 0x02, 0x03, 0x04, 0x05, 0x10, 0x11, 0x12, 0x20, 0x21, 0x30, 0x31, 0x32, 0x33, 0x34,
      0x40, 0x41, 0x42] := by decide
theorem witness_WordsThatSpellNoOperation_mustBeZero :
    (∃ r ∈ opcodeTable, opField r.pattern = opField 0x3001000000000005) ∧
    (∀ r ∈ opcodeTable, opField r.pattern = opField 0x3001000000000005 → r.covers 0x3001000000000005 = false) := by decide
theorem witness_WordsThatSpellNoOperation_step : ∃ s : State, s.fatal = none ∧ s.sched = [⟨.irq, .start⟩] ∧
    s.irqService = false ∧ s.progs.get .irq = [0xFF00000000000000] ∧ decode 0xFF00000000000000 = .invalid .reservedOp :=
  ⟨{ ready with sched := [⟨.irq, .start⟩], progs := ready.progs.put .irq [0xFF00000000000000] }, rfl, rfl, rfl, rfl, rfl⟩

theorem witness_StepRunsDecodedInstruction_admitted :
    (ready.placeWord .rend 0x3100000000000000).progs.get .rend = [0x3100000000000000] ∧
    (ready.placeWord .vid 0x3001000000000000).sched = [⟨.vid, .issue⟩] ∧
    decode 0x3001000000000000 = .op .renderLineVsync ∧ Instr.renderLineVsync.agent = .vid ∧
    (ready.placeWord .vid 0x3001000000000000).admission .renderLineVsync ≠ .wait := by decide
theorem witness_StepRunsDecodedInstruction_waits :
    (ready.placeWord .rend 0x3100000000000000).admission .renderStep = .wait := by decide
theorem witness_StepRunsDecodedInstruction_handler :
    ({ ready with irqService := true, sched := [⟨.irq, .issue⟩] } : State).irqPhase = .idle ∧
    ({ ready with irqService := true, sched := [⟨.irq, .issue⟩] } : State).irqEnabled = true ∧
    ({ ready with irqService := true, sched := [⟨.irq, .issue⟩] } : State).fatal = none := by decide
theorem witness_StepRunsDecodedInstruction_advance :
    ({ polling with sched := [⟨.irq, .advance⟩] } : State).fatal = none ∧ polling.sched = [] := by decide

theorem witness_PlacedWordRunsNext : ready.fatal = none ∧ decode (BitVec.ofNat 64 (0x30000000000000EF % 2 ^ 64)) =
    .op (.renderLine 239) ∧ ready.admission (.renderLine 239) ≠ .wait := by decide

theorem witness_WordFromWrongAgentIsRefused : (ready.placeWord .sw 0x3100000000000000).fatal = none ∧
    (ready.placeWord .sw 0x3100000000000000).progs.get .sw = [0x3100000000000000] ∧
    decode 0x3100000000000000 = .op .renderStep ∧ Instr.renderStep.agent ≠ .sw := by decide

theorem witness_OutOfTurnIssuesAreRefused : ready.fatal = none ∧ ready.cfg.nPool ≤ (2#8).toNat ∧
    ready.cfg.linePixels ≤ (16#16).toNat ∧ polling.irqPhase = .polling 1 .poll ∧ (rendering .vdg 1).rendPhase ≠ .idle ∧
    ({ ready with audPhase := .clocking } : State).audPhase ≠ .idle := by decide

theorem witness_UnmetPreconditionsWait : (ready.rendPhase = .idle ∧ ready.rqHead = ready.rqTail) ∧
    ({ ready with audioArmed := false } : State).audPhase = .idle ∧ ({ ready with irqEnabled := false } : State).irqPhase = .idle := by
  decide

/-- OnlyPermRangeIsFatal: a state outside the fatal state; a range that passes the end of the window, and one that does not. -/
theorem witness_OnlyPermRangeIsFatal : ready.fatal = none ∧ 65536 < (0xFFFF#16).toNat + (2#17).toNat ∧
    ((nextOf (exec (.setPerm 0b010 0xFFFF 2) ready)).map State.fatal) = some (some (.permRange 0xFFFF 2)) ∧
    ((nextOf (exec (.setPerm 0b010 0xFFFF 1) ready)).map State.fatal) = some none := by decide

theorem witness_FatalStateIsQuiescent : (ready.raiseFatal (.permRange 1 65536)).fatal = some (.permRange 1 65536) := by decide

theorem witness_BusWriteEffect : (ready.fatal = none ∧ ready.paused = false) ∧
    ((tagged 0b010 0xFFFF).permAt 0xFFFF).getLsbD 1 = true ∧
    (((tagged 0b100 0).permAt 0).getLsbD 2 = true ∧ ({ cfg16 with snoopEvent := true } : Cfg).snoopEvent = true) ∧
    (((tagged 0b101 0).permAt 0).getLsbD 1 = false ∧ cfg16.snoopEvent = false) ∧ (ready.permAt 0).getLsbD 2 = false ∧
    ({ ready with paused := true } : State).paused = true := by decide

theorem witness_TagTable : ∀ n ∈ [0, 1, 2, 3, 4, 5, 6, 7], let p := BitVec.ofNat 3 n
    (tagged p 0xBDC0).fatal = none ∧ (tagged p 0xBDC0).paused = false ∧ (tagged p 0xBDC0).permAt 0xBDC0 = p := by decide

/-- SW's operations are met by `ready`: ControlRegisterWrites, SetPermCellByCell, SetPermEffect, ShadowAccessors, AudioInitEffect. -/
theorem witness_swIdle : ready.fatal = none ∧ ready.swPhase = .idle ∧ ready.canonical = true := by decide
theorem witness_SetPermEffect_ranges : (0xFFFF#16).toNat + (1#17).toNat ≤ 65536 ∧ 65536 < (0xFFFF#16).toNat + (2#17).toNat := by
  decide
theorem witness_AudioInitEffect_ranges :
    cfg16.audio.base.toNat + cfg16.audio.woLen + cfg16.audio.roLen ≤ 65536 ∧
    65536 < ({ cfg16.audio with base := 0xFFF0 } : AudioCfg).base.toNat + 25 ∧
    (({ cfg16.audio with base := 0xFFE7 } : AudioCfg).base.toNat + 25 ≤ 65536 ∧
      65536 < ({ cfg16.audio with base := 0xFFE7 } : AudioCfg).base.toNat + 25 + 4) := by decide

theorem witness_PollEventEffect : (ready.irqPhase = .idle ∧ ready.irqEnabled = true ∧ ready.R = ready.W) ∧
    (ring 4 0 []).R ≠ (ring 4 0 []).W ∧ ¬(ring 4 0 []).cfg.evsCap < ((ring 4 0 []).W - (ring 4 0 []).R).toNat ∧
    (ring 5 0 []).cfg.evsCap < ((ring 5 0 []).W - (ring 5 0 []).R).toNat ∧ polling.irqPhase = .polling 1 .poll := by decide

/-- W = 2, R = 0, C = 4: `d` is 2, and two or three writes happen between the sub-actions. -/
theorem witness_PollSlotRace : ∃ s t0 : State, s.fatal = none ∧ s.cfg.wf = true ∧ s.paused = false ∧ s.irqPhase = .idle ∧
    s.irqEnabled = true ∧ s.R ≠ s.W ∧ beginOp .pollEvent s = .next t0 ∧
    (∀ p ∈ List.replicate 2 (0x8000#16, 1#8), Perm.qualifies s.cfg.snoopEvent (s.permAt p.1) = true) ∧
    ∀ p ∈ List.replicate 3 (0x8000#16, 1#8), Perm.qualifies s.cfg.snoopEvent (s.permAt p.1) = true :=
  ⟨(ring 2 0 [(0, 0x8000), (1, 0x8000)]).setTag 0b010 0x8000, _, by decide, by decide, by decide, by decide, by decide,
    by decide, rfl, List.all_eq_true.1 (by decide), List.all_eq_true.1 (by decide)⟩

/-- K = C and K = C + 1. -/
theorem witness_RetrievalCount : let s := tagged 0b010 0x8000
    s.cfg.wf = true ∧ s.R = s.W ∧ s.cfg.evsCap = 4 ∧
    (∀ p ∈ List.replicate 4 (0x8000#16, 0x41#8), Perm.qualifies s.cfg.snoopEvent (s.permAt p.1) = true) ∧
    ∀ p ∈ List.replicate 5 (0x8000#16, 0x41#8), Perm.qualifies s.cfg.snoopEvent (s.permAt p.1) = true :=
  ⟨by decide, by decide, by decide, List.all_eq_true.1 (by decide), List.all_eq_true.1 (by decide)⟩

/-- A record for the first and last address of the audio range, the first after it, and the two ports. -/
theorem witness_DispatchHandlesRecord : ∀ n ∈ [0xBDC0, 0xBDD8, 0xBDD9, 0x0E00, 0x0E01],
    let loc := BitVec.ofNat 16 n
    let s := ring 1 0 [(0, loc)]
    s.fatal = none ∧ s.irqPhase = .idle ∧ s.irqEnabled = true ∧ s.R ≠ s.W ∧ s.evSlot 0 = loc := by decide
theorem witness_DispatchHandlesRecord_full : let s := fifo (List.replicate 4 ⟨0, 0⟩)
    (s.afHead - s.afTail).toNat = s.cfg.afifoCap := by decide
theorem witness_DispatchHandlesRecord_indexes : cfg16.tt.crtcStartHi = 12 ∧ cfg16.tt.crtcStartLo = 13 ∧
    cfg16.tt.crtcCursorHi = 14 ∧ cfg16.tt.crtcCursorLo = 15 ∧
    16#8 ∉ [cfg16.tt.crtcStartHi, cfg16.tt.crtcStartLo, cfg16.tt.crtcCursorHi, cfg16.tt.crtcCursorLo] := by decide

/-- A dispatch about to deliver: the last address of the audio range with room and with a full FIFO, the first one after it, the ports. -/
theorem witness_DispatchRereadsTheCell : (∀ n ∈ [0xBDD8, 0xBDD9, 0x0E00, 0x0E01],
      ({ ready with irqPhase := .delivering (BitVec.ofNat 16 n) } : State).irqPhase = .delivering (BitVec.ofNat 16 n)) ∧
    (cfg16.audio.base.toNat ≤ (0xBDD8#16).toNat ∧ (0xBDD8#16).toNat < cfg16.audio.base.toNat + cfg16.audio.woLen) ∧
    ¬(0xBDD9#16).toNat < cfg16.audio.base.toNat + cfg16.audio.woLen ∧ ¬cfg16.audio.base.toNat ≤ (0x0E01#16).toNat ∧
    cfg16.tt.crtcAddr = 0x0E00 ∧ cfg16.tt.crtcData = 0x0E01 ∧
    (ready.afHead - ready.afTail).toNat ≠ cfg16.afifoCap ∧
    ({ polling with irqPhase := .polling 1 .dispatch } : State).irqPhase = .polling 1 .dispatch := by decide

theorem witness_CrtcStartLoadedByPortWrites : let s := (tagged 0b010 0x0E00).setTag 0b010 0x0E01
    s.fatal = none ∧ s.cfg.wf = true ∧ s.R = s.W ∧ (s.permAt s.cfg.tt.crtcAddr).getLsbD 1 = true ∧
    (s.permAt s.cfg.tt.crtcData).getLsbD 1 = true ∧ classify s.cfg s.cfg.tt.crtcAddr = .crtcIndex ∧
    classify s.cfg s.cfg.tt.crtcData = .crtcData ∧ s.cfg.tt.crtcStartHi ≠ s.cfg.tt.crtcStartLo := by decide

theorem witness_InterruptIsTaken : (polling.fatal = none ∧ polling.R ≠ polling.W ∧ polling.irqPhase ≠ .idle) ∧
    ((ring 1 0 []).R ≠ (ring 1 0 []).W ∧ (ring 1 0 []).irqEnabled = true ∧ (ring 1 0 []).irqPhase = .idle) ∧
    ready.R = ready.W := by decide

theorem witness_HandlerDrainsTheRing : (ring 9 0 []).cfg.wf = true ∧
    min (ring 9 0 []).gap.toNat (ring 9 0 []).cfg.evsCap < 5 := by decide

/-- A request for the last index, the frame's length and the largest; a queue with room and a full one. -/
theorem witness_RenderLineRequests : (0xFFFFFFFF#32).toNat % cfg16.frameLines = 15 ∧ (240#32).toNat % cfg16.frameLines = 0 ∧
    (let s := (List.replicate 4 Token.vsync).foldl State.rqPush ready; (s.rqHead - s.rqTail).toNat = s.cfg.rqCap) ∧
    (ready.rqHead - ready.rqTail).toNat ≠ cfg16.rqCap := by decide

theorem witness_QueuesAreFifos : ready.cfg.wf = true ∧ ready.rqTokens.length + 1 < 2 ^ 32 ∧
    ((List.replicate 4 Token.vsync).foldl State.rqPush ready).rqTokens.length = cfg16.rqCap ∧
    (queued .vsync).rqTokens = [.vsync] ∧ (fifo [⟨4, 0x21⟩]).afEntries = [⟨4, 0x21⟩] ∧
    (fifo (List.replicate 4 ⟨0, 0⟩)).afEntries.length = cfg16.afifoCap := by decide

theorem witness_VsyncStepCountsAFrame : (queued .vsync).fatal = none ∧ (queued .vsync).rendPhase = .idle ∧
    (queued .vsync).rqHead ≠ (queued .vsync).rqTail ∧ (queued .vsync).rqSlotAt (queued .vsync).rqTail = .vsync := by decide

/-- Requests whose target is line 0, the last line of each window, and the first line after the VDG's; also for RenderStepRunRefinesExec,
VdgRowAdvance and TeletextLookahead. -/
theorem witness_RenderStepWritesTheTargetLine : ∀ n ∈ [239, 190, 191, 238], let p := BitVec.ofNat 32 n
    (queued (.line p)).fatal = none ∧ (queued (.line p)).rendPhase = .idle ∧ (queued (.line p)).canonical = true ∧
    (queued (.line p)).rqHead ≠ (queued (.line p)).rqTail ∧
    (queued (.line p)).rqSlotAt (queued (.line p)).rqTail = .line p ∧
    ((p.toNat + cfg16.nPool - 1) % cfg16.frameLines = (n + 1) % 240) := by decide
theorem witness_RenderStepRunRefinesExec : ∃ t0, beginOp .renderStep (queued (.line 239)) = .next t0 := ⟨_, rfl⟩

theorem witness_PoolReadAnswersThePixel : (1#8).toNat < cfg16.nPool ∧ (15#16).toNat < cfg16.linePixels ∧
    cfg16.nPool ≤ (2#8).toNat ∧ cfg16.linePixels ≤ (16#16).toNat := by decide

theorem witness_PoolInvariant : (queued (.line 239)).cfg.wf = true ∧
    (queued (.line 239)).rqSlotAt (queued (.line 239)).rqTail = .line 239 ∧ (239#32).toNat < cfg16.frameLines ∧
    0 = ((239#32).toNat + (cfg16.nPool - 1)) % cfg16.frameLines ∧ 239 = ((239#32).toNat + 0) % cfg16.frameLines := by decide

theorem witness_PixelWrittenAfterItsReads : let x := ready.lineCtx .vdg 0
    (rendering .vdg 0).rendPhase = .rendering x 0 [] [] ∧ 15 < cfg16.linePixels ∧
    linePixelReady cfg16 x (knownRead []) 15 = false ∧
    linePixelReady cfg16 x (knownRead [(.row 0, 1), (.css, 0), (.mode, 0)]) 15 = true ∧
    LineRead.mode ∈ lineReads cfg16 x (knownRead []) ∧ knownRead [] .mode = none ∧
    lineReadReady (knownRead []) .mode = true ∧
    -- a row byte before the mode, an attribute byte before the control byte, a border pixel before any read
    LineRead.row 31 ∈ lineReads cfg16 x (knownRead []) ∧
    LineRead.attr 79 ∈ lineReads cfg16 (ready.lineCtx .attr80 0) (knownRead [(.ch 0, 1)]) ∧
    linePixelReady cfg16 (ready.lineCtx .vdg 192) (fun _ => none) 0 = true := by decide

/-- The last line before and the first line after each window; the pixels on both sides of each span. -/
theorem witness_BorderPixels : (ready.lineCtx .vdg 0).renderer = .vdg ∧
    cfg16.vdg.vStart + cfg16.vdg.vLines ≤ (ready.lineCtx .vdg 192).target ∧ cfg16.vdg.hStart + 256 * cfg16.vdg.xscale ≤ 512 ∧
    cfg16.tt.vStart + 500 ≤ (ready.lineCtx .teletext 500).target ∧ cfg16.tt.hStart + 40 * 12 * cfg16.tt.xscale ≤ 480 ∧
    cfg16.a80.vStart + cfg16.a80.rows * cfg16.a80.gh ≤ (ready.lineCtx .attr80 240).target ∧ cfg16.a80.hStart + 640 ≤ 640 ∧
    (3#4 = BitVec.ofNat 4 ((0x30#8).toNat / 2 ^ cfg16.vdg.modeShift) ∧ (3#4).toNat % 2 = 1 ∧
      modeEntry cfg16.vdg.modeTable (3#4).toNat = none) := by decide

/-- The three geometries of VdgRowAdvance: text, a table entry, none. -/
theorem witness_VdgRowAdvance : (if (0 : Nat) = 0 then (queued (.line 239)).rendererCfg else .attr80) = .vdg ∧
    (0#4).toNat % 2 = 0 ∧ modeEntry cfg16.vdg.modeTable 9 = some ⟨.r128, .two, 2⟩ ∧ modeEntry cfg16.vdg.modeTable 3 = none ∧
    cfg16.vdg.vStart ≤ 191 ∧ 191 < cfg16.vdg.vStart + cfg16.vdg.vLines ∧ cfg16.vdg.vStart + cfg16.vdg.vLines ≤ 192 := by decide

/-- The first and the last dot of a line of text. -/
theorem witness_VdgTextPixels : let x := ready.lineCtx .vdg 191
    x.renderer = .vdg ∧ cfg16.vdg.vStart ≤ x.target ∧ x.target < cfg16.vdg.vStart + cfg16.vdg.vLines ∧ (0#4).toNat % 2 = 0 ∧
    vdgLineCount cfg16.vdg { x with lineCount := 11, lastMode := some 0 } 0 = 11 ∧ 31 < 32 ∧ 7 < 8 ∧ 1 < cfg16.vdg.xscale ∧
    charCell cfg16.vdg 0x81 = .alpha false 1 true ∧
    charCell { cfg16.vdg with charDecode := [(0x40, .semi4 0b1001 3), (0xC0, .semi6 0b100001 3)] } 0x40 = .semi4 0b1001 3 ∧
    charCell { cfg16.vdg with charDecode := [(0x40, .semi4 0b1001 3), (0xC0, .semi6 0b100001 3)] } 0xC0 = .semi6 0b100001 3 := by
  decide

/-- The first and the last logical pixel of each depth. -/
theorem witness_VdgGraphicsPixels : (15#4 = BitVec.ofNat 4 ((0xF0#8).toNat / 2 ^ cfg16.vdg.modeShift) ∧
      modeEntry cfg16.vdg.modeTable (15#4).toNat = some ⟨.r256, .one, 1⟩ ∧ 255 < HRes.r256.pixels ∧
      256 / HRes.r256.pixels * cfg16.vdg.xscale = 2) ∧
    (modeEntry cfg16.vdg.modeTable (1#4).toNat = some ⟨.r64, .two, 3⟩ ∧ 63 < HRes.r64.pixels ∧
      256 / HRes.r64.pixels * cfg16.vdg.xscale = 8) := by decide

/-- The last dot of the last column of the last row, with the attribute plane on and off; also for A80LookupAgrees. -/
theorem witness_A80Pixels : let x := ready.lineCtx .attr80 239
    x.renderer = .attr80 ∧ cfg16.a80.vStart ≤ x.target ∧ x.target < cfg16.a80.vStart + cfg16.a80.rows * cfg16.a80.gh ∧
    79 < 80 ∧ 7 < 8 ∧ (x.target - cfg16.a80.vStart) % cfg16.a80.gh = cfg16.a80.ulRow ∧
    (0x01#8).getLsbD 0 = true ∧ (0x02#8).getLsbD 0 = false := by decide

/-- Row 0 starts with 0x91 (bit 7 ignored) and 0x41, the cursor elsewhere. -/
theorem witness_TeletextTwoPhaseExample : let x := { ready.lineCtx .teletext 19 with ttCursor := 2 }
    x.renderer = .teletext ∧ cfg16.tt.vStart ≤ x.target ∧ x.target < cfg16.tt.vStart + 500 ∧ 11 < 12 ∧ 0 < cfg16.tt.xscale ∧
    0x91#8 &&& 0x7F#8 = 0x11#8 ∧ 0x41#8 &&& 0x7F#8 = 0x41#8 ∧ ttCursorOn cfg16.tt x 0 = false ∧
    ttCursorOn cfg16.tt x 1 = false := by decide

/-- The first and last code of the group without effect, a printable code and one that is no set-at or set-after code; a mosaic and
the neighbours that are none. -/
theorem witness_ControlCodeEffects : 0x1B#8 ∈ [0x00#8, 0x0A#8, 0x0B#8, 0x0E#8, 0x0F#8, 0x10#8, 0x1B#8] ∧
    0x20#8 ∉ [0x09#8, 0x0C#8, 0x0D#8, 0x19#8, 0x1A#8, 0x1C#8, 0x1D#8, 0x1E#8] ∧
    0x1E#8 ∉ [0x01#8, 0x02#8, 0x03#8, 0x04#8, 0x05#8, 0x06#8, 0x07#8, 0x08#8, 0x11#8, 0x12#8, 0x13#8, 0x14#8, 0x15#8, 0x16#8,
      0x17#8, 0x18#8, 0x1F#8] ∧
    ({ Scan.start with gfx := true } : Scan).gfx = true ∧ (0x20 ≤ (0x20#8).toNat ∧ (0x20#8).getLsbD 5 = true) ∧
    (0x1F#8).toNat < 0x20 ∧ (0x40#8).getLsbD 5 = false ∧ Scan.start.gfx = false ∧
    Scan.start.hold = false ∧ ({ Scan.start with hold := true, held := some (0x7F, true) } : Scan).held = some (0x7F, true) := by
  decide

/-- The last dot of the last column of the last row, and of the first. -/
theorem witness_TeletextCellPixels : ∀ n ∈ [0, 499], let x := ready.lineCtx .teletext n
    x.renderer = .teletext ∧ cfg16.tt.vStart ≤ x.target ∧ x.target < cfg16.tt.vStart + 500 ∧ 39 < 40 ∧ 11 < 12 ∧
    0 < cfg16.tt.xscale := by decide

theorem witness_TeletextCellContent : 19 < 20 ∧ 0x20 ≤ (0x7F#8).toNat ∧ (0x7F#8).getLsbD 5 = true ∧
    (0x5F#8).getLsbD 5 = false ∧ (0x1F#8).toNat < 0x20 ∧ Scan.start.gfx = false ∧ Scan.start.held = none := by decide

theorem witness_TeletextLookahead : let s := { queued (.line 239) with rendererCfg := .teletext }
    (if (0 : Nat) = 0 then s.rendererCfg else s.rendererFrame) = .teletext ∧
    ((239#32).toNat + s.cfg.nPool - 1) % s.cfg.frameLines = 0 ∧ s.rqSlotAt s.rqTail = .line 239 := by decide

theorem witness_AudioResetPushesSentinel : (ready.fatal = none ∧ ready.irqPhase = .idle ∧ ready.irqEnabled = true) ∧
    (ready.afHead - ready.afTail).toNat ≠ ready.cfg.afifoCap ∧
    (let s := fifo (List.replicate 4 ⟨0, 0⟩); (s.afHead - s.afTail).toNat = s.cfg.afifoCap) := by decide

theorem witness_AudioTick : let s := fifo [⟨4, 0x11⟩, ⟨0, 0x100⟩, ⟨5, 0x22⟩]
    s.fatal = none ∧ s.cfg.wf = true ∧ s.audPhase = .idle ∧ s.audioArmed = true ∧ s.afEntries.length = 3 := by decide

/-- A14: one entry in the FIFO, and none. -/
theorem witness_LateEntries : (∃ t0, beginOp .audioTick (fifo [⟨4, 0x11⟩]) = .next t0) ∧
    (∃ t0, beginOp .audioTick ready = .next t0) ∧ (fifo [⟨4, 0x11⟩]).inv = true ∧
    (fifo [⟨4, 0x11⟩]).afEntries.length < cfg16.afifoCap ∧ ready.inv = true :=
  ⟨⟨_, rfl⟩, ⟨_, rfl⟩, by decide, by decide, by decide⟩

theorem witness_AudioWriteReachesTheSynthesizer : let s := (tagged 0b010 0xBDD8).setTag 0b001 0xBDDC
    s.fatal = none ∧ s.inv = true ∧ s.cfg.wf = true ∧ s.paused = false ∧ s.R = s.W ∧ s.afHead = s.afTail ∧
    s.cfg.audio.woLen ≤ 256 ∧ (0xBDD8#16).toNat < s.cfg.audio.base.toNat + s.cfg.audio.woLen ∧
    (s.permAt 0xBDD8).getLsbD 1 = true ∧ 3 < s.cfg.audio.roLen ∧ statusAddr s.cfg 3 = 0xBDDC ∧
    (s.permAt (statusAddr s.cfg 3)).getLsbD 0 = true := by decide

/-- Configurations that fail each check first: capacities, then the conditions of 00_scope.md R8 in order. -/
theorem witness_ConfigCheckOrder : (¬isPow2 3 = true ∧ ¬isPow2 0 = true ∧ isPow2 (2 ^ 31) = true) ∧
    (cfg16.evsCap = 2 ^ 2 ∧ cfg16.rqCap = 2 ^ 2 ∧ cfg16.afifoCap = 2 ^ 2 ∧ cfg16.nPool ∈ [2, 3, 4] ∧
      cfg16.frameLines % cfg16.nPool = 0 ∧ cfg16.nPool ≤ cfg16.frameLines ∧ cfg16.tt.cursorPeriod = 2 ^ 7 ∧
      cfg16.audio.base.toNat + cfg16.audio.woLen + cfg16.audio.roLen ≤ 65536) ∧
    1 ∉ [2, 3, 4] ∧ 5 ∉ [2, 3, 4] ∧ 3 % 2 ≠ 0 ∧ (0 % 2 = 0 ∧ 0 < 2) ∧ ¬isPow2 0 = true ∧ 65536 < 65535 + 1 + 1 := by decide

theorem witness_InvariantHoldsAtReset : (State.resetOf cfg16 Draws.zero).canonical = true := by decide

theorem witness_StepKeepsInvariant : ∃ t, (queued (.line 239)).inv = true ∧
    step ((queued (.line 239)).placeWord .rend 0x3100000000000000) = .next t := ⟨_, by decide, rfl⟩

theorem witness_StepRespectsSingleWriters : ∃ t, (ready.placeWord .bus 0x0100004100008000).sched = [⟨.bus, .issue⟩] ∧
    step (ready.placeWord .bus 0x0100004100008000) = .next t := ⟨_, rfl, rfl⟩

end Sys2Proof.Tests
end

/-! The step runs the decoded operation (00_scope.md R6, R10), O6 and O7. `State.issueNext` is said once per branch, for a meaning
`run` that is `exec` (a whole operation) or `beginOp` (its first sub-action); the obligations are its two instances. -/

namespace Sys2Proof.Machine

section IssueNext

variable {s : State} {a : Agent} {w : Txn} {ws : List Txn} {i : Instr}
  {run : Instr → State → Host.Outcome State Fault Refusal}

/-- An agent's own operation that need not wait runs at the state with its word taken. -/
theorem State.issueNext_run (hn : s.nextWord a = some w) (hd : decode w = .op i) (hi : i.agent = a)
    (ha : s.admission i ≠ .wait) : s.issueNext a run = run i (s.takeWord a) := by
  cases h : s.admission i with
  | wait => exact absurd h ha
  | go => simp [State.issueNext, hn, hd, hi, h]
  | refuse why => simp [State.issueNext, hn, hd, hi, h]

/-- An agent's own operation that must wait changes nothing: its word stays (60_exceptions.md R385). -/
theorem State.issueNext_wait (hn : s.nextWord a = some w) (hd : decode w = .op i) (hi : i.agent = a)
    (ha : s.admission i = .wait) : s.issueNext a run = .next s := by
  simp [State.issueNext, hn, hd, hi, ha]

/-- The admission does not look at the schedule. -/
theorem admission_sched (s : State) (rest : List Slot) (i : Instr) :
    ({ s with sched := rest } : State).admission i = s.admission i :=
  admission_env s i s.progs rest s.irqService

/-- `State.issueNext_run` for a word of the agent's program. -/
theorem State.issueNext_run_prog (h : a = .irq → s.irqService = false) (hp : s.progs.get a = w :: ws)
    (hd : decode w = .op i) (hi : i.agent = a) (ha : s.admission i ≠ .wait) :
    s.issueNext a run = run i { s with progs := s.progs.put a ws } := by
  rw [State.issueNext_run (State.nextWord_prog h hp) hd hi ha, State.takeWord_prog h hp]

end IssueNext

/-! ## The handler's words (30_encoding.md R103) -/

theorem decode_dispatchWord : decode dispatchWord = .op .eventDispatch := by decide

/-- Inside `irq_service`, with no operation in progress, the IRQ agent's next word is EVENT_DISPATCH. -/
theorem State.nextWord_handler {s : State} (hv : s.irqService = true) (hp : s.irqPhase = .idle) :
    s.nextWord .irq = some dispatchWord := by
  simp [State.nextWord, hv, hp]

/-- Inside `irq_service` taking the word leaves the handler's mark exactly when something is pending (60_exceptions.md R390). -/
theorem State.takeWord_handler {s : State} (hv : s.irqService = true) :
    s.takeWord .irq = { s with irqService := s.pending } := by
  cases h : s.pending with
  | true =>
    have hs : s.takeWord .irq = s := by simp [State.takeWord, hv, h]
    rw [hs, ← hv]
  | false => simp [State.takeWord, hv, h, State.returnInterrupt]

/-- With no operation of the IRQ agent in progress and interrupts enabled, a dispatch goes ahead (60_exceptions.md R386). -/
theorem State.admission_eventDispatch_idle {s : State} (hp : s.irqPhase = .idle) (he : s.irqEnabled = true) :
    s.admission .eventDispatch = .go := by
  simp [State.admission, State.admitPoll, hp, he]

/-- The handler's issue runs EVENT_DISPATCH without a program word. -/
theorem State.issueNext_handler {s : State} {run : Instr → State → Host.Outcome State Fault Refusal}
    (hv : s.irqService = true) (hp : s.irqPhase = .idle) (he : s.irqEnabled = true) :
    s.issueNext .irq run = run .eventDispatch { s with irqService := s.pending } := by
  have hgo := State.admission_eventDispatch_idle hp he
  rw [State.issueNext_run (State.nextWord_handler hv hp) decode_dispatchWord rfl (by simp [hgo]),
    State.takeWord_handler hv]

/-! ## The placed word -/

theorem wordAgent_op {w : Txn} {i : Instr} (hd : decode w = .op i) : wordAgent w = i.agent := by
  simp [wordAgent, hd]

/-- A placed word of an operation that need not wait runs at the state it was placed in, outside the handler if it is the IRQ
agent's. -/
theorem step_placeWord {s : State} {w : Txn} {i : Instr} (hf : s.fatal = none) (hd : decode w = .op i)
    (ha : s.admission i ≠ .wait) :
    step (s.placeWord i.agent w) = exec i { s with irqService := if i.agent = .irq then false else s.irqService } := by
  have hs : (s.placeWord i.agent w).sched = ⟨i.agent, .issue⟩ :: s.sched := rfl
  have hv : i.agent = .irq → (s.placeWord i.agent w).irqService = false := fun h => if_pos h
  have hp : (s.placeWord i.agent w).progs.get i.agent = w :: s.progs.get i.agent := Programs.get_put ..
  have hadm : (s.placeWord i.agent w).admission i ≠ .wait := by
    unfold State.placeWord
    rwa [admission_env]
  calc step (s.placeWord i.agent w)
    _ = State.issueNext { s.placeWord i.agent w with sched := s.sched } i.agent exec :=
        step_cons (s := s.placeWord i.agent w) hf hs
    _ = exec i { s.placeWord i.agent w with
          sched := s.sched, progs := (s.placeWord i.agent w).progs.put i.agent (s.progs.get i.agent) } :=
        State.issueNext_run_prog hv hp hd rfl (by rwa [admission_sched])
    _ = exec i { s with irqService := if i.agent = .irq then false else s.irqService } := by
        simp [State.placeWord]

end Sys2Proof.Machine

namespace Sys2Proof.Proofs

open Sys2Proof.Machine

/-- Settles O6: a step is the first schedule entry's move (`step_cons`), and an issue runs the decoded operation
(`State.issueNext_run_prog`, `State.issueNext_handler`) or leaves it waiting (`State.issueNext_wait`). -/
theorem stepRunsDecodedInstruction : Obligations.StepRunsDecodedInstruction := by
  refine ⟨?program, ?handler, ?advance, fun s hf hs => step_nil hf hs⟩
  case program =>
    intro s a m rest w ws i hf hs hv hp hd hi
    rw [step_cons hf hs]
    have hadm := admission_sched s rest i
    refine ⟨fun ha => ?_, fun ha => ?_⟩
    · have hrun (run) : State.issueNext { s with sched := rest } a run =
          run i { s with sched := rest, progs := s.progs.put a ws } :=
        State.issueNext_run_prog hv hp hd hi (by rwa [hadm])
      exact ⟨by rintro rfl; exact hrun exec, by rintro rfl; exact hrun beginOp⟩
    · have hwait (run) : State.issueNext { s with sched := rest } a run = .next { s with sched := rest } :=
        State.issueNext_wait (State.nextWord_prog hv hp) hd hi (by rwa [hadm])
      rintro (rfl | rfl)
      · exact hwait exec
      · exact hwait beginOp
  case handler =>
    intro s m rest hf hs hv hp he
    rw [step_cons hf hs]
    have hrun (run) : State.issueNext { s with sched := rest } .irq run =
        run .eventDispatch { s with sched := rest, irqService := s.pending } :=
      State.issueNext_handler hv hp he
    exact ⟨by rintro rfl; exact hrun exec, by rintro rfl; exact hrun beginOp⟩
  case advance =>
    intro s a rest hf hs
    exact step_cons hf hs

/-- Settles O7: the word goes to the agent of its operation (`wordAgent_op`), where `step_placeWord` runs it. -/
theorem placedWordRunsNext : Obligations.PlacedWordRunsNext := by
  intro s nbits w i hf hd ha
  rw [State.withFetchWord, wordAgent_op hd]
  exact step_placeWord hf hd ha

end Sys2Proof.Proofs

/-! The request queue and the audio FIFO as bounded FIFOs (10_state.md R28, R37), O30, and the invariant every step keeps, O59.
`Invariant` is `State.inv` as a structure, one field per conjunct. For each state operation there is one lemma that says it keeps
the invariant; its proof names the fields the operation touches and takes the others from the state before. -/

namespace Sys2Proof.Machine

/-! ## Free-running counts -/

/-- A push below the capacity keeps the count within it; a count that wraps to 0 (log 26) is within it too. -/
theorem count_push_le {h t : Word32} {cap : Nat} (hle : (h - t).toNat ≤ cap) (hne : (h - t).toNat ≠ cap) :
    (h + 1#32 - t).toNat ≤ cap := by
  have hs : (h + 1#32 - t).toNat = ((h - t).toNat + 1) % 2 ^ 32 := by bv_omega
  omega

/-- What a count reached before a push it still reaches after it, unless the queue has 2^32 slots or more and the count wraps
(log 26). -/
theorem le_count_push {h t : Word32} {cap n : Nat} (hn : n ≤ (h - t).toNat) (hle : (h - t).toNat ≤ cap)
    (hne : (h - t).toNat ≠ cap) : n ≤ (h + 1#32 - t).toNat ∨ 2 ^ 32 ≤ cap := by
  have hs : (h + 1#32 - t).toNat = ((h - t).toNat + 1) % 2 ^ 32 := by bv_omega
  omega

/-- `n` pops from a queue that holds as many lower the count by `n`. -/
theorem count_pops {h t : Word32} {n : Nat} (hn : n ≤ (h - t).toNat) :
    (h - (t + BitVec.ofNat 32 n)).toNat = (h - t).toNat - n := by
  have hn' : n < 2 ^ 32 := by omega
  have : (BitVec.ofNat 32 n).toNat = n := by rw [BitVec.toNat_ofNat, Nat.mod_eq_of_lt hn']
  bv_omega

/-! ## The queues read as lists -/

theorem State.rqTokens_length (s : State) : s.rqTokens.length = s.rqCount.toNat := by simp [State.rqTokens]

theorem State.afEntries_length (s : State) : s.afEntries.length = s.afCount.toNat := by simp [State.afEntries]

theorem State.rqTokens_rqPush {s : State} {k : Nat} (hcap : s.cfg.rqCap = 2 ^ k) (tok : Token)
    (hc : s.rqCount.toNat < s.cfg.rqCap) (hw : s.rqCount.toNat + 1 < 2 ^ 32) :
    (s.rqPush tok).rqTokens = s.rqTokens ++ [tok] := by
  rw [State.rqPush_room hc.ne]
  simp only [State.rqTokens, State.rqSlotAt, State.rqCount, hcap] at hc hw ⊢
  exact ring_push _ _ _ _ k tok hc hw

theorem State.afEntries_afPush {s : State} {k : Nat} (hcap : s.cfg.afifoCap = 2 ^ k) (e : Entry)
    (hc : s.afCount.toNat < s.cfg.afifoCap) (hw : s.afCount.toNat + 1 < 2 ^ 32) :
    (s.afPush e).afEntries = s.afEntries ++ [e] := by
  rw [State.afPush_room hc.ne]
  simp only [State.afEntries, State.afSlotAt, State.afCount, hcap] at hc hw ⊢
  exact ring_push _ _ _ _ k e hc hw

theorem State.rqTokens_rqPop {s : State} {tok : Token} {toks : List Token} (h : s.rqTokens = tok :: toks) :
    s.rqTop = tok ∧ s.rqPop.rqTokens = toks :=
  ring_pop s.rqSlotAt s.rqHead s.rqTail tok toks h

theorem State.afEntries_afPop {s : State} {e : Entry} {es : List Entry} (h : s.afEntries = e :: es) :
    s.afTop = e ∧ s.afPop.afEntries = es :=
  ring_pop s.afSlotAt s.afHead s.afTail e es h

/-- Whatever the queue held, after a push it holds nothing but that and the token pushed. -/
theorem State.mem_rqTokens_rqPush {s : State} {k : Nat} (hcap : s.cfg.rqCap = 2 ^ k) (hle : s.rqCount.toNat ≤ s.cfg.rqCap)
    {tok u : Token} (hu : u ∈ (s.rqPush tok).rqTokens) : u = tok ∨ u ∈ s.rqTokens := by
  by_cases hfull : s.rqCount.toNat = s.cfg.rqCap
  · rw [State.rqPush_full hfull] at hu
    exact .inr hu
  · by_cases hw : s.rqCount.toNat + 1 < 2 ^ 32
    · rw [State.rqTokens_rqPush hcap tok (by omega) hw] at hu
      rcases List.mem_append.1 hu with hu | hu
      · exact .inr hu
      · exact .inl (List.mem_singleton.1 hu)
    · -- the count wraps to 0: the queue reads as empty
      have h0 : (s.rqPush tok).rqCount.toNat = 0 := by
        rw [State.rqPush_room hfull]
        simp only [State.rqCount] at hw ⊢
        bv_omega
      rw [← State.rqTokens_length, List.length_eq_zero_iff] at h0
      simp [h0] at hu

/-- A pop takes no token in. -/
theorem State.mem_rqTokens_rqPop {s : State} (h0 : s.rqCount.toNat ≠ 0) {u : Token} (hu : u ∈ s.rqPop.rqTokens) :
    u ∈ s.rqTokens := by
  cases hl : s.rqTokens with
  | nil => exact absurd (by simp [← State.rqTokens_length, hl]) h0
  | cons tok toks =>
    rw [(State.rqTokens_rqPop hl).2] at hu
    exact List.mem_cons_of_mem _ hu

/-! ## The phases' conjuncts, case by case -/

theorem State.fillOk_filling {s : State} {f : Perm} {a n : Nat} {k : FillThen} (hp : s.swPhase = .filling f a n k) :
    s.fillOk = true ↔ 0 < n ∧ a + n ≤ 65536 := by
  simp [State.fillOk, hp]

theorem State.fillOk_andThen {s : State} {k : FillThen} (hp : s.swPhase = k.phase) : s.fillOk = true := by
  cases k <;> simp [State.fillOk, hp, FillThen.phase]

theorem State.tickOk_draining {s : State} {n : Nat} (hp : s.audPhase = .draining n) :
    s.tickOk = true ↔ 0 < n ∧ (n ≤ s.afCount.toNat ∨ 2 ^ 32 ≤ s.cfg.afifoCap) := by
  simp [State.tickOk, hp]

theorem State.tickOk_idle {s : State} (hp : s.audPhase = .idle) : s.tickOk = true := by simp [State.tickOk, hp]

theorem State.tickOk_clocking {s : State} (hp : s.audPhase = .clocking) : s.tickOk = true := by simp [State.tickOk, hp]

theorem State.tickOk_statusPhase {s : State} {i : Nat} (hp : s.audPhase = statusPhase s.cfg i) : s.tickOk = true := by
  unfold statusPhase at hp
  split at hp
  · simpa [State.tickOk, hp]
  · exact State.tickOk_idle hp

/-- A push does not take from a draining tick the entries it still has to apply. -/
theorem State.tickOk_afPush {s : State} (e : Entry) (hle : s.afCount.toNat ≤ s.cfg.afifoCap) (h : s.tickOk = true) :
    (s.afPush e).tickOk = true := by
  by_cases hfull : s.afCount.toNat = s.cfg.afifoCap
  · rwa [State.afPush_full hfull]
  · cases hp : s.audPhase with
    | draining n =>
      obtain ⟨hn, hc⟩ := (State.tickOk_draining hp).1 h
      refine (State.tickOk_draining (by rw [State.afPush_audPhase, hp])).2 ⟨hn, ?_⟩
      rw [State.afPush_room hfull]
      rcases hc with hc | hc
      · exact le_count_push hc hle hfull
      · exact .inr hc
    | idle => exact State.tickOk_idle (by rw [State.afPush_audPhase, hp])
    | clocking => exact State.tickOk_clocking (by rw [State.afPush_audPhase, hp])
    | status i => simpa [State.tickOk, hp] using h

/-- The bookkeeping a line commits keeps the line count below the divisor of its mode (43_scanline_decode.md R236). -/
theorem State.rowOk_commitLine {s : State} (x : LineCtx) (rd : LineRead → Byte) (h : s.rowOk = true) :
    (s.commitLine x rd).rowOk = true := by
  unfold State.commitLine
  split
  · unfold vdgCommit
    split
    · simp only
      split
      · simp [State.rowOk]
      · rename_i hlt
        simp only [State.rowOk, decide_eq_true_eq, BitVec.toNat_ofNat]
        have := Nat.mod_le (vdgLineCount s.cfg.vdg x (vdgNibble s.cfg.vdg (rd .mode)) + 1) (2 ^ 8)
        omega
    · exact h
  · unfold ttCommit
    split
    · simp only
      split <;> exact h
    · exact h
  · exact h

/-! ## What an admission tells -/

/-- A RENDER_STEP goes ahead only on a queue that holds a token (60_exceptions.md R385). -/
theorem State.rqCount_of_admitRender {s : State} (h : s.admitRender = .go) : s.rqCount.toNat ≠ 0 := by
  unfold State.admitRender at h
  split at h
  · cases h
  · split at h
    · cases h
    · rename_i he
      simpa [State.rqEmpty, ← BitVec.toNat_inj] using he

/-- An AUDIO_TICK goes ahead only where no tick is in progress (60_exceptions.md R384). -/
theorem State.audPhase_of_admitTick {s : State} (h : s.admitTick = .go) : s.audPhase = .idle := by
  unfold State.admitTick at h
  split at h
  · cases h
  · exact not_not.1 ‹_›

/-- Taking the word changes no admission. -/
theorem admission_takeWord (s : State) (a : Agent) (i : Instr) : (s.takeWord a).admission i = s.admission i := by
  rw [State.takeWord_frame]
  exact admission_env s i _ s.sched _

theorem State.takeWord_fatal (s : State) (a : Agent) : (s.takeWord a).fatal = s.fatal := by rw [State.takeWord_frame]

/-! ## The invariant -/

/-- `State.inv`, a field per conjunct. -/
structure Invariant (s : State) : Prop where
  shadow      : s.shadow.wf = true
  perm        : Sparse.wf Perm.tagNone 65536 s.perm = true
  evbuf       : Sparse.wfFrom 0#16 0 s.evbuf = true
  rqSlot      : Sparse.wfFrom Token.vsync 0 s.rqSlot = true
  pool        : Sparse.wfFrom 0#8 0 s.pool = true
  afSlot      : Sparse.wfFrom ⟨0#8, 0#9⟩ 0 s.afSlot = true
  writingSlot : s.writingSlotOk = true
  fill        : s.fillOk = true
  tick        : s.tickOk = true
  rqCount     : s.rqCount.toNat ≤ s.cfg.rqCap
  afCount     : s.afCount.toNat ≤ s.cfg.afifoCap
  config      : s.configOk = true
  tokens      : ∀ tok ∈ s.rqTokens, tok.inFrame s.cfg = true
  render      : s.renderOk = true
  row         : s.rowOk = true

theorem State.inv_iff (s : State) : s.inv = true ↔ Invariant s := by
  simp only [State.inv, State.canonical, State.queuesOk, State.tokensOk, Bool.and_eq_true, decide_eq_true_eq,
    List.all_eq_true, and_assoc]
  constructor
  · rintro ⟨shadow, perm, evbuf, rqSlot, pool, afSlot, writing, fill, tick, rqCount, afCount, config, tokens, render, row⟩
    exact ⟨shadow, perm, evbuf, rqSlot, pool, afSlot, writing, fill, tick, rqCount, afCount, config, tokens, render, row⟩
  · intro h
    exact ⟨h.shadow, h.perm, h.evbuf, h.rqSlot, h.pool, h.afSlot, h.writingSlot, h.fill, h.tick, h.rqCount, h.afCount,
      h.config, h.tokens, h.render, h.row⟩

namespace Invariant

variable {s : State}

/-- Outside the fatal state the configuration passed the check. -/
theorem cfg_wf (h : Invariant s) (hf : s.fatal = none) : s.cfg.wf = true := by
  simpa [State.configOk, hf] using h.config

theorem frameLines_pos (h : Invariant s) (hf : s.fatal = none) : 0 < s.cfg.frameLines := by
  obtain ⟨-, -, -, hpool, -, hle, -⟩ := (Cfg.wf_iff _).1 (h.cfg_wf hf)
  omega

theorem rqCap_pow2 (h : Invariant s) (hf : s.fatal = none) : ∃ k, s.cfg.rqCap = 2 ^ k :=
  ((Cfg.wf_iff _).1 (h.cfg_wf hf)).2.1

/-! ## Memory, tags, results, the environment -/

theorem writeByte (h : Invariant s) (a : Addr) (v : Byte) : Invariant (s.writeByte a v) :=
  { h with shadow := Memory.wf_set a v h.shadow }

theorem setTag (h : Invariant s) (f : Perm) {a : Nat} (ha : a < 65536) : Invariant (s.setTag f a) :=
  { h with perm := Sparse.wf_set a f ha h.perm }

theorem setTags (h : Invariant s) (f : Perm) {base n : Nat} (hb : base + n ≤ 65536) : Invariant (s.setTags f base n) :=
  { h with perm := Sparse.wf_splice base _ (by simpa using hb) h.perm }

theorem raiseFatal (h : Invariant s) (c : FatalCode) : Invariant (s.raiseFatal c) :=
  { h with config := by simp [State.configOk, State.raiseFatal] }

theorem answer (h : Invariant s) (a : Agent) (r : Result) : Invariant (s.answer a r) := { h with }

theorem refuse (h : Invariant s) (why : RefuseReason) : Invariant (s.refuse why) := { h with }

theorem takeWord (h : Invariant s) (a : Agent) : Invariant (s.takeWord a) := by
  rw [State.takeWord_frame]
  exact { h with }

theorem takeInterrupt (h : Invariant s) : Invariant s.takeInterrupt := by
  unfold State.takeInterrupt
  split
  · exact { h with }
  · exact h

/-! ## Queues -/

theorem enqueue (h : Invariant s) (a : Addr) : Invariant (s.enqueue a) :=
  { h with evbuf := Sparse.wfFrom_set _ _ h.evbuf }

theorem rqPush (h : Invariant s) (hf : s.fatal = none) {tok : Token} (htok : tok.inFrame s.cfg = true) :
    Invariant (s.rqPush tok) := by
  obtain ⟨k, hcap⟩ := h.rqCap_pow2 hf
  have htoks : ∀ u ∈ (s.rqPush tok).rqTokens, u.inFrame s.cfg = true := fun u hu => by
    rcases State.mem_rqTokens_rqPush hcap h.rqCount hu with rfl | hu
    · exact htok
    · exact h.tokens u hu
  by_cases hfull : s.rqCount.toNat = s.cfg.rqCap
  · rwa [State.rqPush_full hfull]
  · rw [State.rqPush_room hfull] at htoks ⊢
    exact { h with
      rqSlot := Sparse.wfFrom_set _ _ h.rqSlot
      rqCount := count_push_le h.rqCount hfull
      tokens := htoks }

theorem rqPop (h : Invariant s) (h0 : s.rqCount.toNat ≠ 0) : Invariant s.rqPop :=
  { h with
    rqCount := by
      have := count_pops (h := s.rqHead) (t := s.rqTail) (Nat.one_le_iff_ne_zero.2 h0)
      exact this.trans_le ((Nat.sub_le _ _).trans h.rqCount)
    tokens := fun u hu => h.tokens u (State.mem_rqTokens_rqPop h0 hu) }

theorem afPush (h : Invariant s) (e : Entry) : Invariant (s.afPush e) := by
  have htick := State.tickOk_afPush e h.afCount h.tick
  by_cases hfull : s.afCount.toNat = s.cfg.afifoCap
  · rwa [State.afPush_full hfull]
  · rw [State.afPush_room hfull] at htick ⊢
    exact { h with
      afSlot := Sparse.wfFrom_set _ _ h.afSlot
      afCount := count_push_le h.afCount hfull
      tick := htick }

/-! ## The bus side and SW -/

theorem capture (h : Invariant s) (a : Addr) (v : Byte) : Invariant (s.capture a v) := by
  have hw : Invariant (if Perm.write (s.permAt a) then s.writeByte a v else s) := by
    split
    · exact h.writeByte a v
    · exact h
  unfold State.capture
  split
  · exact h
  · simp only
    split
    · exact hw.enqueue a
    · exact hw

theorem setPerm (h : Invariant s) (f : Perm) (base len : Nat) : Invariant (s.setPerm f base len) := by
  unfold State.setPerm
  split
  · exact h.raiseFatal _
  · exact h.setTags f (by omega)

theorem audioInit (h : Invariant s) : Invariant s.audioInit := by
  have hwo := h.setPerm Perm.tagWrite s.cfg.audio.base.toNat s.cfg.audio.woLen
  have hro := hwo.setPerm Perm.tagRead (s.cfg.audio.base.toNat + s.cfg.audio.woLen) s.cfg.audio.roLen
  unfold State.audioInit
  simp only
  split
  · exact hwo
  · split
    · exact hro
    · exact { hro with }

theorem fillStart (h : Invariant s) (f : Perm) (base len : Nat) (k : FillThen) : Invariant (s.fillStart f base len k) := by
  unfold State.fillStart
  split
  · exact { h.raiseFatal (.permRange base len) with fill := rfl }
  · split
    · exact { h with fill := State.fillOk_andThen rfl }
    · exact { h with fill := (State.fillOk_filling rfl).2 (by omega) }

theorem swAdvance (h : Invariant s) : Invariant s.swAdvance := by
  unfold State.swAdvance
  split
  next => exact h
  next f a n k hp =>
    obtain ⟨hn, hwin⟩ := (State.fillOk_filling hp).1 h.fill
    refine { h.setTag f (by omega : a < 65536) with fill := ?_ }
    split
    · exact State.fillOk_andThen rfl
    · exact (State.fillOk_filling rfl).2 (by omega)
  next => exact h.fillStart _ _ _ _
  next => exact { h with fill := rfl }
  next => exact { h with fill := rfl }

/-! ## Polls and dispatches -/

theorem pollSample (h : Invariant s) (op : PollFor) : Invariant (s.pollSample op) := by
  rw [State.pollSample_frame]
  exact { h with }

theorem pollTake (h : Invariant s) (op : PollFor) : Invariant (s.pollTake op) := by
  rw [State.pollTake_frame]
  exact { h with }

theorem applyEvent (h : Invariant s) (loc : Addr) (v : Byte) : Invariant (s.applyEvent loc v) := by
  unfold State.applyEvent
  split
  · exact h.afPush _
  · exact { h with }
  · rw [State.crtcData_frame]
    exact { h with }
  · exact h

theorem deliver (h : Invariant s) (loc : Addr) : Invariant (s.deliver loc) :=
  { h.applyEvent loc (s.readByte loc) with }

theorem irqAdvance (h : Invariant s) : Invariant s.irqAdvance := by
  unfold State.irqAdvance
  split
  · exact h
  · exact h.pollTake _
  · exact h.deliver _

/-! ## Requests and the render step -/

theorem rqPushLine (h : Invariant s) (hf : s.fatal = none) (line : Word32) :
    Invariant (s.rqPush (.line (BitVec.ofNat 32 (requestLine s.cfg line)))) := by
  refine h.rqPush hf (decide_eq_true ?_)
  calc (BitVec.ofNat 32 (requestLine s.cfg line)).toNat
    _ ≤ requestLine s.cfg line := by rw [BitVec.toNat_ofNat]; exact Nat.mod_le _ _
    _ < s.cfg.frameLines := Nat.mod_lt _ (h.frameLines_pos hf)

theorem stepPop (h : Invariant s) (hf : s.fatal = none) (h0 : s.rqCount.toNat ≠ 0) : Invariant s.stepPop := by
  unfold State.stepPop
  split
  next => exact { h.rqPop h0 with }
  next p _ =>
    have ht : targetLine s.cfg p < s.cfg.frameLines := Nat.mod_lt _ (h.frameLines_pos hf)
    exact { h.rqPop h0 with
      writingSlot := by simp [State.writingSlotOk]
      render := by simp [State.renderOk, State.lineCtx, State.rqPop, ht] }

theorem writeLine (h : Invariant s) (slot : Nat) (px : List Pixel) : Invariant (s.writeLine slot px) :=
  { h with pool := Sparse.wfFrom_splice _ px h.pool }

theorem writePixel (h : Invariant s) (slot x : Nat) (p : Pixel) : Invariant (s.writePixel slot x p) :=
  { h with pool := Sparse.wfFrom_set _ p h.pool }

theorem commitLine (h : Invariant s) (x : LineCtx) (rd : LineRead → Byte) : Invariant (s.commitLine x rd) := by
  have hrow := State.rowOk_commitLine x rd h.row
  rw [State.commitLine_frame] at hrow ⊢
  exact { h with row := hrow }

theorem stepCommit (h : Invariant s) (x : LineCtx) (rd : LineRead → Byte) : Invariant (s.stepCommit x rd) :=
  { h.commitLine x rd with writingSlot := rfl, render := rfl }

theorem stepFinish (h : Invariant s) : Invariant s.stepFinish := by
  unfold State.stepFinish
  split
  · exact h
  · exact (h.writeLine _ _).stepCommit _ _

/-- A step in progress keeps its target and its slot while its reads and its pixel writes are noted. -/
theorem rendering {x x' : LineCtx} {slot : Nat} {reads reads' : List (LineRead × Byte)} {written written' : List Nat}
    (h : Invariant s) (hp : s.rendPhase = .rendering x slot reads written) (hx : x'.target = x.target) :
    Invariant { s with rendPhase := .rendering x' slot reads' written' } :=
  { h with
    writingSlot := by simpa [State.writingSlotOk, hp] using h.writingSlot
    render := by simpa [State.renderOk, hp, hx] using h.render }

theorem rendRead (h : Invariant s) (r : LineRead) : Invariant (s.rendRead r) := by
  unfold State.rendRead
  split
  next => exact h
  next x slot reads written hp =>
    split
    · exact h.rendering hp (State.scanCtx_target s x reads)
    · exact h

theorem rendWrite (h : Invariant s) (p : Nat) : Invariant (s.rendWrite p) := by
  unfold State.rendWrite
  split
  next => exact h
  next x slot reads written hp =>
    split
    · exact (h.writePixel slot p _).rendering hp rfl
    · exact h

theorem rendAdvance (h : Invariant s) : Invariant s.rendAdvance := by
  unfold State.rendAdvance
  split
  · exact h
  · split
    · exact h.rendRead _
    · split
      · exact h.rendWrite _
      · exact h.stepCommit _ _

/-! ## The tick -/

theorem clockSynth (h : Invariant s) : Invariant s.clockSynth := { h with }

theorem writeStatus (h : Invariant s) (i : Nat) : Invariant (s.writeStatus i) := h.writeByte _ _

theorem writeStatuses (h : Invariant s) (i n : Nat) : Invariant (s.writeStatuses i n) := by
  induction n generalizing s i with
  | zero => exact h
  | succ n ih => exact ih (h.writeStatus i) (i + 1)

/-- With no tick between its sub-actions, entries the FIFO holds can be applied. -/
theorem drain (h : Invariant s) (hp : s.audPhase = .idle) {n : Nat} (hn : n ≤ s.afCount.toNat) : Invariant (s.drain n) := by
  rw [State.drain_eq]
  exact { h with
    tick := State.tickOk_idle hp
    afCount := (count_pops hn).trans_le ((Nat.sub_le _ _).trans h.afCount) }

theorem tickWhole (h : Invariant s) (hp : s.audPhase = .idle) : Invariant s.tick :=
  ((h.drain hp le_rfl).clockSynth).writeStatuses 0 _

theorem tickStart (h : Invariant s) : Invariant s.tickStart := by
  unfold State.tickStart
  split
  next => exact { h with tick := rfl }
  next h0 => exact { h with tick := (State.tickOk_draining rfl).2 ⟨Nat.pos_of_ne_zero h0, .inl le_rfl⟩ }

/-- One entry of a drain applied: the entries left are still in the FIFO. -/
theorem drainOne (h : Invariant s) {n : Nat} (hp : s.audPhase = .draining n) :
    Invariant { s.applyEntry with audPhase := if n ≤ 1 then .clocking else .draining (n - 1) } := by
  obtain ⟨hn, hc⟩ := (State.tickOk_draining hp).1 h.tick
  have hpop : 1 ≤ s.afCount.toNat → s.applyEntry.afCount.toNat = s.afCount.toNat - 1 := count_pops
  have hle : s.applyEntry.afCount.toNat ≤ s.cfg.afifoCap := by
    have := s.applyEntry.afCount.isLt
    have := h.afCount
    omega
  refine { h with tick := ?_, afCount := hle }
  split
  · rfl
  · refine (State.tickOk_draining rfl).2 ⟨by omega, ?_⟩
    show n - 1 ≤ s.applyEntry.afCount.toNat ∨ 2 ^ 32 ≤ s.cfg.afifoCap
    omega

theorem audAdvance (h : Invariant s) : Invariant s.audAdvance := by
  unfold State.audAdvance
  split
  next => exact h
  next n hp => exact h.drainOne hp
  next => exact { h.clockSynth with tick := State.tickOk_statusPhase rfl }
  next i _ => exact { h.writeStatus i with tick := State.tickOk_statusPhase rfl }

/-! ## Operations, sub-actions, steps -/

theorem effect_of_go {i : Instr} (h : Invariant s) (hf : s.fatal = none) (ha : s.admission i = .go) :
    Invariant (effect i s) := by
  cases i with
  | busWr a v => exact h.capture a v
  | busRd a => exact h.answer _ _
  | capPause | capResume | setIrqEnable | setRenderer | setReveal => exact { h with }
  | setPerm f base len => exact h.setPerm _ _ _
  | shadowRd a => exact h.answer _ _
  | shadowWr a v => exact h.writeByte a v
  | pollEvent => exact (h.pollSample _).irqAdvance
  | eventDispatch => exact (h.pollSample _).irqAdvance.irqAdvance
  | renderLine line => exact (h.rqPushLine hf line).answer _ _
  | renderLineVsync => exact (h.rqPush hf rfl).answer _ _
  | renderStep => exact (h.stepPop hf (State.rqCount_of_admitRender ha)).stepFinish
  | poolRead slot x => exact h.answer _ _
  | audioInit => exact h.audioInit
  | audioTick => exact h.tickWhole (State.audPhase_of_admitTick ha)
  | audioReset => exact h.afPush _

theorem beginEffect_of_go {i : Instr} (h : Invariant s) (hf : s.fatal = none) (ha : s.admission i = .go) :
    Invariant (beginEffect i s) := by
  cases i with
  | setPerm f base len => exact h.fillStart _ _ _ _
  | audioInit => exact h.fillStart _ _ _ _
  | pollEvent | eventDispatch => exact h.pollSample _
  | renderStep => exact h.stepPop hf (State.rqCount_of_admitRender ha)
  | audioTick => exact h.tickStart
  | busWr | busRd | capPause | capResume | setIrqEnable | shadowRd | shadowWr | renderLine | renderLineVsync | poolRead
  | setRenderer | setReveal | audioReset => exact h.effect_of_go hf ha

theorem advance (h : Invariant s) (a : Agent) : Invariant (s.advance a) := by
  cases a with
  | bus | vid => exact h
  | sw => exact h.swAdvance
  | irq => exact h.irqAdvance
  | rend => exact h.rendAdvance
  | aud => exact h.audAdvance

theorem stepCase {a : Agent} {t : State} (h : Invariant s) (hf : s.fatal = none) (hc : StepCase s a t) : Invariant t := by
  have hf' : (s.takeWord a).fatal = none := (State.takeWord_fatal s a).trans hf
  cases hc with
  | stay => exact h
  | refused why => exact (h.takeWord a).refuse why
  | effect i _ ha => exact (h.takeWord a).effect_of_go hf' ((admission_takeWord s a i).trans ha)
  | beginEffect i _ ha => exact (h.takeWord a).beginEffect_of_go hf' ((admission_takeWord s a i).trans ha)
  | advance => exact h.advance a
  | read r _ => exact h.rendRead r
  | write p _ => exact h.rendWrite p
  | takeIrq _ => exact h.takeInterrupt

/-- Every step keeps the invariant: what the step leaves is one of `StepCase`'s states, and each keeps it. -/
theorem of_step {t : State} (h : Invariant s) (hs : step s = .next t) : Invariant t := by
  obtain ⟨hf, ⟨-, rfl⟩ | ⟨slot, rest, -, hc⟩⟩ := step_cases hs
  · exact h
  · exact stepCase (s := { s with sched := rest }) { h with } hf hc

end Invariant

end Sys2Proof.Machine

namespace Sys2Proof.Proofs

open Sys2Proof.Machine

/-- Settles O59, by the cases of a step (`step_cases`): each state operation keeps every field of `Invariant`. -/
theorem stepKeepsInvariant : Obligations.StepKeepsInvariant := by
  intro s t hs hstep
  exact (State.inv_iff t).2 (((State.inv_iff s).1 hs).of_step hstep)

/-- Settles O30, by the laws of a ring read as a list: `ring_push` and `ring_pop` for both queues. -/
theorem queuesAreFifos : Obligations.QueuesAreFifos := by
  intro s hwf
  obtain ⟨-, ⟨k, hrq⟩, ⟨l, haf⟩, -⟩ := (Cfg.wf_iff s.cfg).1 hwf
  rw [State.rqTokens_length, State.afEntries_length]
  refine ⟨fun tok => ⟨?_, ?_⟩, fun tok toks => ?_, fun e => ⟨?_, ?_⟩, fun e es => ?_⟩
  · exact State.rqPush_full
  · exact State.rqTokens_rqPush hrq tok
  · exact State.rqTokens_rqPop
  · exact State.afPush_full
  · exact State.afEntries_afPush haf e
  · exact State.afEntries_afPop

end Sys2Proof.Proofs

/-! The encoding (30_encoding.md R90-R95), O1, O2, O3, O5, O8. Each must-be-zero test of the decoder is an equation between a field
and a zero-extended operand; `decode_encode` reads the equations one way and `decode_describes`, which says once what the decoder can
answer, the other. The rows of the opcode table are tied to the encoder by `encode_covered` and `exists_encode_of_covers`. -/

namespace Sys2Proof

/-! ## Words and their fields -/

/-- Two words are equal when their four fields are. -/
theorem word_eq_iff {op f : BitVec 8} {b : BitVec 16} {a : BitVec 32} {w : Txn} :
    word op f b a = w ↔ opField w = op ∧ fField w = f ∧ bField w = b ∧ aField w = a := by
  constructor
  · rintro rfl
    simp
  · rintro ⟨rfl, rfl, rfl, rfl⟩
    exact word_fields w

/-- A field is its zero-extended low slice when its bits above that slice are 0. -/
theorem eq_low_of_high_bits {m n : Nat} {x : BitVec m} (h : ∀ i, i < m → n ≤ i → x.getLsbD i = false) :
    x = (x.extractLsb' 0 n).setWidth m := by
  apply BitVec.eq_of_getLsbD_eq
  intro i hi
  by_cases hn : i < n
  · simp [hi, hn]
  · rw [h i hi (by omega)]
    simp [hn]

/-- A slice that reaches to a field's top is 0 exactly when the field is the slice below it, zero-extended. -/
theorem high_eq_zero_iff {m n k : Nat} {x : BitVec m} (hm : m = n + k) :
    x.extractLsb' n k = 0#k ↔ x = (x.extractLsb' 0 n).setWidth m := by
  constructor
  · intro h
    refine eq_low_of_high_bits fun i hi hn => ?_
    have hbit : (x.extractLsb' n k).getLsbD (i - n) = false := by rw [h]; exact BitVec.getLsbD_zero
    simpa [show i - n < k by omega, show n + (i - n) = i by omega] using hbit
  · intro h
    rw [h]
    exact extractLsb'_setWidth_high _ _ _ _ le_rfl

/-- A field under a mask of ones is the pattern's. -/
theorem eq_of_and_ones {m : Nat} {x k p : BitVec m} (hk : k = BitVec.allOnes m) (h : x &&& k = p) : x = p := by
  rwa [hk, BitVec.and_allOnes] at h

/-- A field that a mask of its bits above an operand's slice clears is that operand, zero-extended. -/
theorem eq_low_of_and_eq_zero {m : Nat} (n : Nat) {x k : BitVec m} (h : x &&& k = 0#m)
    (hk : ∀ i, i < m → n ≤ i → k.getLsbD i = true) : x = (x.extractLsb' 0 n).setWidth m := by
  refine eq_low_of_high_bits fun i hi hn => ?_
  have hbit : (x &&& k).getLsbD i = false := by rw [h]; exact BitVec.getLsbD_zero
  simpa [hk i hi hn] using hbit

/-! ## The must-be-zero tests of the decoder, as equations of the fields (30_encoding.md R92, R93) -/

theorem noOperands_iff {w : Txn} : noOperands w = true ↔ fField w = 0#8 ∧ bField w = 0#16 ∧ aField w = 0#32 := by
  simp [noOperands, and_assoc]

theorem aHighZero_iff {w : Txn} : aHighZero w = true ↔ aField w = (addrOperand w).setWidth 32 := by
  rw [aHighZero, beq_iff_eq]
  exact high_eq_zero_iff rfl

theorem bHighZero_iff {w : Txn} : bHighZero w = true ↔ bField w = (dataOperand w).setWidth 16 := by
  rw [bHighZero, beq_iff_eq]
  exact high_eq_zero_iff rfl

/-- The F field of a flag is the slice of its lowest bit, zero-extended. -/
theorem flagField_getLsbD (f : BitVec 8) : flagField (f.getLsbD 0) = (f.extractLsb' 0 1).setWidth 8 := by
  rw [flagField]
  congr 1
  ext i hi
  simp [show i = 0 by omega]

theorem fHighZero_iff {w : Txn} : (fField w).extractLsb' 1 7 = 0#7 ↔ fField w = flagField (vOperand w) := by
  rw [vOperand, flagField_getLsbD]
  exact high_eq_zero_iff rfl

theorem onlyV_iff {w : Txn} :
    onlyV w = true ↔ fField w = flagField (vOperand w) ∧ bField w = 0#16 ∧ aField w = 0#32 := by
  simp [onlyV, fHighZero_iff, and_assoc]

theorem flagsOnly_iff {w : Txn} : (fField w).extractLsb' 3 5 = 0#5 ↔ fField w = (flagsOperand w).setWidth 8 :=
  high_eq_zero_iff rfl

theorem lenOnly_iff {w : Txn} : (aField w).extractLsb' 17 15 = 0#15 ↔ aField w = (lenOperand w).setWidth 32 :=
  high_eq_zero_iff rfl

theorem selOnly_iff {w : Txn} : (fField w).extractLsb' 2 6 = 0#6 ↔ fField w = (selOperand w).setWidth 8 :=
  high_eq_zero_iff rfl

/-- The one term that spells no operation is SET_RENDERER with `sel = 3` (30_encoding.md R93). -/
theorem Instr.eq_of_not_wellFormed {i : Instr} (h : ¬ i.wellFormed = true) : i = .setRenderer 3#2 := by
  cases i with
  | setRenderer sel => simpa [Instr.wellFormed] using h
  | _ => exact absurd rfl h

/-! ## The operands of an encoded word -/

@[simp] theorem addrOperand_word (op f : BitVec 8) (b a : BitVec 16) : addrOperand (word op f b (a.setWidth 32)) = a := by
  simp [addrOperand]

@[simp] theorem dataOperand_word (op f d : BitVec 8) (a : BitVec 32) : dataOperand (word op f (d.setWidth 16) a) = d := by
  simp [dataOperand]

@[simp] theorem baseOperand_word (op f : BitVec 8) (b : BitVec 16) (a : BitVec 32) : baseOperand (word op f b a) = b := by
  simp [baseOperand]

@[simp] theorem lenOperand_word (op f : BitVec 8) (b : BitVec 16) (l : BitVec 17) :
    lenOperand (word op f b (l.setWidth 32)) = l := by
  simp [lenOperand]

@[simp] theorem lineOperand_word (op f : BitVec 8) (b : BitVec 16) (a : BitVec 32) : lineOperand (word op f b a) = a := by
  simp [lineOperand]

@[simp] theorem flagsOperand_word (op : BitVec 8) (p : BitVec 3) (b : BitVec 16) (a : BitVec 32) :
    flagsOperand (word op (p.setWidth 8) b a) = p := by
  simp [flagsOperand]

@[simp] theorem selOperand_word (op : BitVec 8) (r : BitVec 2) (b : BitVec 16) (a : BitVec 32) :
    selOperand (word op (r.setWidth 8) b a) = r := by
  simp [selOperand]

@[simp] theorem vOperand_word (op : BitVec 8) (v : Bool) (b : BitVec 16) (a : BitVec 32) :
    vOperand (word op (flagField v) b a) = v := by
  cases v <;> simp [vOperand, flagField]

/-! ## Decoding an encoded word -/

theorem decode_encode_setRenderer (r : BitVec 2) :
    decode (encode (.setRenderer r)) = if r = 3#2 then .invalid .reservedSelector else .op (.setRenderer r) := by
  simp [encode, decode, extractLsb'_setWidth_high]

/-- A well-formed operation's word passes its arm's must-be-zero tests, and its operands read back. -/
theorem decode_encode {i : Instr} (h : i.wellFormed = true) : decode (encode i) = .op i := by
  cases i with
  | capPause | capResume | pollEvent | eventDispatch | renderStep | audioInit | audioTick | audioReset =>
    simp [encode, decode, ifZero, noOperands_iff]
  | busRd a | shadowRd a => simp [encode, decode, ifZero, aHighZero_iff]
  | busWr a v | shadowWr a v | poolRead v a => simp [encode, decode, ifZero, aHighZero_iff, bHighZero_iff]
  | setIrqEnable v | setReveal v => simp [encode, decode, ifZero, onlyV_iff]
  | setPerm f base len => simp [encode, decode, ifZero, extractLsb'_setWidth_high]
  | renderLine line => simp [encode, decode, ifZero, vOperand]
  | renderLineVsync => decide
  | setRenderer sel => rw [decode_encode_setRenderer, if_neg (by simpa [Instr.wellFormed] using h)]

/-! ## What the decoder answers -/

/-- The assigned OP values (30_encoding.md R92). -/
def assignedOps : List Nat :=
  [0x01, 0x02, 0x03, 0x04, 0x05, 0x10, 0x11, 0x12, 0x20, 0x21, 0x30, 0x31, 0x32, 0x33, 0x34, 0x40, 0x41, 0x42]

/-- What an answer of the decoder says about the word (30_encoding.md R92-R94). -/
def Decoded.Describes (w : Txn) : Decoded → Prop
  | .op i => i.wellFormed = true ∧ encode i = w
  | .invalid .reservedOp => (opField w).toNat ∉ assignedOps
  | .invalid .mustBeZero => (opField w).toNat ∈ assignedOps
  | .invalid .reservedSelector => encode (.setRenderer 3#2) = w

/-- What an arm with a must-be-zero test answers: where the test says that the fields of the word are those of the arm's operation,
the answer describes the word. -/
theorem ifZero_describes {w : Txn} {zero : Bool} {i : Instr} {op f : BitVec 8} {b : BitVec 16} {a : BitVec 32}
    (he : encode i = word op f b a) (hwf : i.wellFormed = true) (hop : (opField w).toNat = op.toNat)
    (hmem : op.toNat ∈ assignedOps) (hzero : zero = true → fField w = f ∧ bField w = b ∧ aField w = a) :
    (ifZero zero i).Describes w := by
  cases zero with
  | true => exact ⟨hwf, he.trans (word_eq_iff.2 ⟨BitVec.eq_of_toNat_eq hop, hzero rfl⟩)⟩
  | false => exact show (opField w).toNat ∈ assignedOps from hop ▸ hmem

/-- The decoder's answer describes the word, by the arms of `decode` (numbered in its order of OP values). -/
theorem decode_describes (w : Txn) : (decode w).Describes w := by
  unfold decode
  split
  -- An address and a byte: BUS_WR, SHADOW_WR, POOL_READ; then an address alone, no operand, one flag.
  case h_1 hop | h_8 hop | h_13 hop =>
    exact ifZero_describes rfl rfl hop (by decide) (by simp [bHighZero_iff, aHighZero_iff, and_assoc])
  case h_2 hop | h_7 hop => exact ifZero_describes rfl rfl hop (by decide) (by simp [aHighZero_iff, and_assoc])
  case h_3 hop | h_4 hop | h_9 hop | h_10 hop | h_12 hop | h_16 hop | h_17 hop | h_18 hop =>
    exact ifZero_describes rfl rfl hop (by decide) noOperands_iff.1
  case h_5 hop | h_15 hop => exact ifZero_describes rfl rfl hop (by decide) onlyV_iff.1
  -- SET_PERM.
  case h_6 hop =>
    exact ifZero_describes rfl rfl hop (by decide) (by simp [flagsOnly_iff, lenOnly_iff, baseOperand])
  -- RENDER_LINE, its form given by bit 0 of F.
  case h_11 hop =>
    split
    next hv => exact ifZero_describes rfl rfl hop (by decide) fun h => by simpa [hv, flagField] using onlyV_iff.1 h
    next hv =>
      exact ifZero_describes rfl rfl hop (by decide) (by simp [fHighZero_iff, hv, flagField, lineOperand])
  -- SET_RENDERER, whose selector is tested once its word has the form.
  case h_14 hop =>
    have hword : encode (.setRenderer (selOperand w)) = w ↔
        (fField w).extractLsb' 2 6 = 0#6 ∧ bField w = 0#16 ∧ aField w = 0#32 := by
      rw [encode, word_eq_iff, selOnly_iff]
      exact and_iff_right (BitVec.eq_of_toNat_eq hop)
    split
    next h =>
      have hw := hword.2 (by simpa [and_assoc] using h)
      split
      next hsel => exact show encode (.setRenderer 3#2) = w from beq_iff_eq.1 hsel ▸ hw
      next hsel => exact ⟨bne_iff_ne.2 (by simpa using hsel), hw⟩
    next => exact show (opField w).toNat ∈ assignedOps from hop ▸ by decide
  case h_19 =>
    show (opField w).toNat ∉ assignedOps
    simp only [assignedOps, List.mem_cons, List.not_mem_nil, or_false, not_or]
    and_intros <;> assumption

/-- The converse of `decode_encode`: a word that decodes to an operation is that operation's word. -/
theorem encode_of_decode {w : Txn} {i : Instr} (h : decode w = .op i) : i.wellFormed = true ∧ encode i = w := by
  have := decode_describes w
  rwa [h] at this

/-! ## The rows of the opcode table -/

/-- A word matches a row when each of its fields does. -/
theorem TableRow.covers_iff {r : TableRow} {w : Txn} : r.covers w = true ↔
    opField w &&& opField r.mask = opField r.pattern ∧ fField w &&& fField r.mask = fField r.pattern ∧
    bField w &&& bField r.mask = bField r.pattern ∧ aField w &&& aField r.mask = aField r.pattern := by
  rw [TableRow.covers, beq_iff_eq]
  nth_rw 1 [← word_fields w, ← word_fields r.mask]
  rw [word_and, word_eq_iff]
  simp only [eq_comm]

/-- Every row's mask takes in the whole OP field, and its OP value is assigned. -/
theorem opField_of_mem_opcodeTable {r : TableRow} (hr : r ∈ opcodeTable) :
    opField r.mask = BitVec.allOnes 8 ∧ (opField r.pattern).toNat ∈ assignedOps := by
  revert r
  decide

/-- Every operation's word matches the operation's own row (30_encoding.md R92). -/
theorem encode_covered (i : Instr) : ∃ r, opcodeTable[i.tableIndex]? = some r ∧ r.covers (encode i) = true := by
  have h : Laws.Encoding.Statement i := by
    cases i with
    | busWr a v => exact Laws.Encoding.busWr a v
    | busRd a => exact Laws.Encoding.busRd a
    | capPause => exact Laws.Encoding.capPause
    | capResume => exact Laws.Encoding.capResume
    | setIrqEnable v => exact Laws.Encoding.setIrqEnable v
    | setPerm f base len => exact Laws.Encoding.setPerm f base len
    | shadowRd a => exact Laws.Encoding.shadowRd a
    | shadowWr a v => exact Laws.Encoding.shadowWr a v
    | pollEvent => exact Laws.Encoding.pollEvent
    | eventDispatch => exact Laws.Encoding.eventDispatch
    | renderLine line => exact Laws.Encoding.renderLine line
    | renderLineVsync => exact Laws.Encoding.renderLineVsync
    | renderStep => exact Laws.Encoding.renderStep
    | poolRead slot x => exact Laws.Encoding.poolRead slot x
    | setRenderer sel => exact Laws.Encoding.setRenderer sel
    | setReveal v => exact Laws.Encoding.setReveal v
    | audioInit => exact Laws.Encoding.audioInit
    | audioTick => exact Laws.Encoding.audioTick
    | audioReset => exact Laws.Encoding.audioReset
  obtain ⟨r, hr, hw⟩ := h
  exact ⟨r, hr, beq_iff_eq.2 hw⟩


/-- A row without operands covers its pattern alone. -/
theorem TableRow.pattern_eq_of_covers {r : TableRow} {w : Txn} (hmask : r.mask = BitVec.allOnes 64) (h : r.covers w = true) :
    r.pattern = w := by
  rw [TableRow.covers, hmask, BitVec.and_allOnes, beq_iff_eq] at h
  exact h.symm

/-- The flag operand of a word whose F field is 0 above bit 0. -/
theorem eq_flagField_of_and_eq_zero {f k : BitVec 8} (h : f &&& k = 0#8) (hk : ∀ i, i < 8 → 1 ≤ i → k.getLsbD i = true) :
    f = flagField (f.getLsbD 0) := by
  rw [flagField_getLsbD]
  exact eq_low_of_and_eq_zero 1 h hk

/-- Every operation's word matches a row of its own OP value. -/
theorem exists_row_of_encode (i : Instr) :
    ∃ r ∈ opcodeTable, opField r.pattern = opField (encode i) ∧ r.covers (encode i) = true := by
  obtain ⟨r, hi, hc⟩ := encode_covered i
  have hr := List.mem_of_getElem? hi
  obtain ⟨ho, -⟩ := TableRow.covers_iff.1 hc
  exact ⟨r, hr, (eq_of_and_ones (opField_of_mem_opcodeTable hr).1 ho).symm, hc⟩

/-- A word that a row covers is the word of an operation of that row. -/
theorem exists_encode_of_covers {w : Txn} {r : TableRow} (hr : r ∈ opcodeTable) (h : r.covers w = true) :
    ∃ i : Instr, opcodeTable[i.tableIndex]? = some r ∧ encode i = w := by
  obtain ⟨ho, hf, hb, ha⟩ := TableRow.covers_iff.1 h
  simp only [opcodeTable, List.mem_cons, List.not_mem_nil, or_false] at hr
  rcases hr with rfl | rfl | rfl | rfl | rfl | rfl | rfl | rfl | rfl | rfl | rfl | rfl | rfl | rfl | rfl | rfl | rfl | rfl | rfl
  · exact ⟨.busWr (addrOperand w) (dataOperand w), rfl, word_eq_iff.2 ⟨eq_of_and_ones rfl ho, eq_of_and_ones rfl hf,
      eq_low_of_and_eq_zero 8 hb (by decide), eq_low_of_and_eq_zero 16 ha (by decide)⟩⟩
  · exact ⟨.busRd (addrOperand w), rfl, word_eq_iff.2
      ⟨eq_of_and_ones rfl ho, eq_of_and_ones rfl hf, eq_of_and_ones rfl hb, eq_low_of_and_eq_zero 16 ha (by decide)⟩⟩
  · exact ⟨.capPause, rfl, TableRow.pattern_eq_of_covers rfl h⟩
  · exact ⟨.capResume, rfl, TableRow.pattern_eq_of_covers rfl h⟩
  · exact ⟨.setIrqEnable (vOperand w), rfl, word_eq_iff.2
      ⟨eq_of_and_ones rfl ho, eq_flagField_of_and_eq_zero hf (by decide), eq_of_and_ones rfl hb, eq_of_and_ones rfl ha⟩⟩
  · exact ⟨.setPerm (flagsOperand w) (baseOperand w) (lenOperand w), rfl, word_eq_iff.2
      ⟨eq_of_and_ones rfl ho, eq_low_of_and_eq_zero 3 hf (by decide), rfl, eq_low_of_and_eq_zero 17 ha (by decide)⟩⟩
  · exact ⟨.shadowRd (addrOperand w), rfl, word_eq_iff.2
      ⟨eq_of_and_ones rfl ho, eq_of_and_ones rfl hf, eq_of_and_ones rfl hb, eq_low_of_and_eq_zero 16 ha (by decide)⟩⟩
  · exact ⟨.shadowWr (addrOperand w) (dataOperand w), rfl, word_eq_iff.2 ⟨eq_of_and_ones rfl ho, eq_of_and_ones rfl hf,
      eq_low_of_and_eq_zero 8 hb (by decide), eq_low_of_and_eq_zero 16 ha (by decide)⟩⟩
  · exact ⟨.pollEvent, rfl, TableRow.pattern_eq_of_covers rfl h⟩
  · exact ⟨.eventDispatch, rfl, TableRow.pattern_eq_of_covers rfl h⟩
  · exact ⟨.renderLine (lineOperand w), rfl, word_eq_iff.2
      ⟨eq_of_and_ones rfl ho, eq_of_and_ones rfl hf, eq_of_and_ones rfl hb, rfl⟩⟩
  · exact ⟨.renderLineVsync, rfl, TableRow.pattern_eq_of_covers rfl h⟩
  · exact ⟨.renderStep, rfl, TableRow.pattern_eq_of_covers rfl h⟩
  · exact ⟨.poolRead (dataOperand w) (addrOperand w), rfl, word_eq_iff.2 ⟨eq_of_and_ones rfl ho, eq_of_and_ones rfl hf,
      eq_low_of_and_eq_zero 8 hb (by decide), eq_low_of_and_eq_zero 16 ha (by decide)⟩⟩
  · exact ⟨.setRenderer (selOperand w), rfl, word_eq_iff.2
      ⟨eq_of_and_ones rfl ho, eq_low_of_and_eq_zero 2 hf (by decide), eq_of_and_ones rfl hb, eq_of_and_ones rfl ha⟩⟩
  · exact ⟨.setReveal (vOperand w), rfl, word_eq_iff.2
      ⟨eq_of_and_ones rfl ho, eq_flagField_of_and_eq_zero hf (by decide), eq_of_and_ones rfl hb, eq_of_and_ones rfl ha⟩⟩
  · exact ⟨.audioInit, rfl, TableRow.pattern_eq_of_covers rfl h⟩
  · exact ⟨.audioTick, rfl, TableRow.pattern_eq_of_covers rfl h⟩
  · exact ⟨.audioReset, rfl, TableRow.pattern_eq_of_covers rfl h⟩

/-- A word of no operation is Invalid by its OP value: reserved, or assigned with a must-be-zero bit set (30_encoding.md R93,
R94). -/
theorem decode_of_ne_encode {w : Txn} (h : ∀ i, encode i ≠ w) :
    decode w = .invalid (if (opField w).toNat ∈ assignedOps then .mustBeZero else .reservedOp) := by
  have hd := decode_describes w
  cases hw : decode w with
  | op i => rw [hw] at hd; exact absurd hd.2 (h i)
  | invalid why =>
    rw [hw] at hd
    cases why with
    | reservedOp => rw [if_neg (show _ ∉ assignedOps from hd)]
    | mustBeZero => rw [if_pos (show _ ∈ assignedOps from hd)]
    | reservedSelector => exact absurd hd (h _)

end Sys2Proof

namespace Sys2Proof.Machine

/-! ## Refused words (30_encoding.md R94, R95) -/

section Refused

variable {s : State} {a : Agent} {m : Move} {rest : List Slot} {w : Txn} {ws : List Txn} {i : Instr} {why : Invalid}
  {run : Instr → State → Host.Outcome State Fault Refusal}

theorem State.issueNext_invalid (hn : s.nextWord a = some w) (hd : decode w = .invalid why) :
    s.issueNext a run = .next ((s.takeWord a).refuse .invalid) := by
  simp [State.issueNext, hn, hd]

theorem State.issueNext_wrongAgent (hn : s.nextWord a = some w) (hd : decode w = .op i) (hi : i.agent ≠ a) :
    s.issueNext a run = .next ((s.takeWord a).refuse .wrongAgent) := by
  simp [State.issueNext, hn, hd, hi]

/-- A step that issues a program word which every issue refuses consumes the word and sets `refused`. -/
theorem step_refuses {reason : RefuseReason} (hf : s.fatal = none) (hs : s.sched = ⟨a, m⟩ :: rest)
    (hm : m = .issue ∨ m = .start) (hv : a = .irq → s.irqService = false) (hp : s.progs.get a = w :: ws)
    (hr : ∀ run, State.issueNext { s with sched := rest } a run =
      .next ((State.takeWord { s with sched := rest } a).refuse reason)) :
    step s = .next { s with sched := rest, progs := s.progs.put a ws, refused := true } := by
  have htake : State.takeWord { s with sched := rest } a = { s with sched := rest, progs := s.progs.put a ws } :=
    State.takeWord_prog hv hp
  rw [step_cons hf hs]
  rcases hm with rfl | rfl
  · exact (hr exec).trans (by rw [htake]; rfl)
  · exact (hr beginOp).trans (by rw [htake]; rfl)

end Refused

end Sys2Proof.Machine

namespace Sys2Proof.Proofs

open Sys2Proof.Machine

/-- Settles O1, by the operations' forms (`decode_encode`). -/
theorem decodeEncodeRoundTrip : Obligations.DecodeEncodeRoundTrip := fun _ => decode_encode

/-- Settles O2: what the decoder's answer says about the word (`decode_describes`). -/
theorem decodedWordIsTheEncodedWord : Obligations.DecodedWordIsTheEncodedWord := fun _ _ => encode_of_decode

/-- Settles O3: a word that decodes is its operation's word, which its row covers; a covered word is the word of an operation
of the row, which decodes to it where it is well-formed. -/
theorem decoderAgreesWithOpcodeTable : Obligations.DecoderAgreesWithOpcodeTable := by
  refine ⟨fun w i h => ?_, fun w r hr hc => ?_⟩
  · obtain ⟨-, rfl⟩ := encode_of_decode h
    exact encode_covered i
  · obtain ⟨i, hi, rfl⟩ := exists_encode_of_covers hr hc
    by_cases hwf : i.wellFormed = true
    · exact .inr ⟨i, decode_encode hwf, hi⟩
    · obtain rfl := Instr.eq_of_not_wellFormed hwf
      cases hi
      exact .inl ⟨rfl, by decide, by decide⟩

/-- Settles O5: the words of its first two clauses are no operation's (`exists_row_of_encode`), so their OP value alone says why
they are Invalid (`decode_of_ne_encode`); a step refuses an Invalid word whoever issues it (`step_refuses`). -/
theorem wordsThatSpellNoOperationAreRefused : Obligations.WordsThatSpellNoOperationAreRefused := by
  refine ⟨fun w (hop : _ ∉ assignedOps) => ?_, fun w ⟨r, hr, hop⟩ hrows => ?_, by decide, ?_⟩
  · have hne (i : Instr) : encode i ≠ w := by
      rintro rfl
      obtain ⟨r, hr, hi, -⟩ := exists_row_of_encode i
      exact hop (hi ▸ (opField_of_mem_opcodeTable hr).2)
    rw [decode_of_ne_encode hne, if_neg hop]
  · have hne (i : Instr) : encode i ≠ w := by
      rintro rfl
      obtain ⟨r, hr, hi, hc⟩ := exists_row_of_encode i
      exact Bool.false_ne_true ((hrows r hr hi).symm.trans hc)
    rw [decode_of_ne_encode hne, if_pos (hop ▸ (opField_of_mem_opcodeTable hr).2)]
  · intro s a m rest w ws why hf hs hm hv hp hd
    exact step_refuses hf hs hm hv hp fun _ => State.issueNext_invalid (State.nextWord_prog hv hp) hd

/-- Settles O8: `step_refuses` at a word of another agent's operation; the agents are those of `Instr.agent`. -/
theorem wordFromWrongAgentIsRefused : Obligations.WordFromWrongAgentIsRefused := by
  refine ⟨fun s a m rest w ws i hf hs hm hv hp hd hi => ?_, ?_⟩
  · exact step_refuses hf hs hm hv hp fun _ => State.issueNext_wrongAgent (State.nextWord_prog hv hp) hd hi
  · simp [Instr.agent]

end Sys2Proof.Proofs

/-! The handler drains the ring (30_encoding.md R103), O28. The unread records held are the slots from the resynchronised cursor up
to W (`State.unread_eq`); each dispatch takes the first of them (`State.unread_dispatched`), and the last one finds the ring empty. -/

namespace Sys2Proof.Machine

/-! ## The unread records (41_eventstream.md R162) -/

/-- The resynchronised cursor stands at the oldest record still held: min(gap, C) before W (41_eventstream.md R165). -/
theorem State.resynced_eq (s : State) :
    s.resynced s.W = s.W - BitVec.ofNat 32 (min s.gap.toNat s.cfg.evsCap) := by
  unfold State.resynced State.gap
  split
  next h => rw [Nat.min_eq_right h.le]
  next h => rw [Nat.min_eq_left (Nat.not_lt.1 h)]; bv_omega

/-- From the resynchronised cursor to W there are the min(gap, C) records held. -/
theorem State.toNat_W_sub_resynced (s : State) : (s.W - s.resynced s.W).toNat = min s.gap.toNat s.cfg.evsCap := by
  have hgap := s.gap.isLt
  rw [State.resynced_eq]
  generalize hk : min s.gap.toNat s.cfg.evsCap = k
  have : k < 2 ^ 32 := by omega
  bv_omega

/-- The unread records held are those from the resynchronised cursor up to W. -/
theorem State.unread_eq (s : State) : s.unread =
    (List.range (s.W - s.resynced s.W).toNat).map fun i => s.evSlot (s.resynced s.W + BitVec.ofNat 32 i) := by
  rw [State.toNat_W_sub_resynced, State.resynced_eq]
  rfl

theorem State.unread_length (s : State) : s.unread.length = min s.gap.toNat s.cfg.evsCap := by
  simp [State.unread]

/-- The unread record held first is in the cursor's slot, and past it the others are held. -/
theorem State.unread_cons {s : State} {a : Addr} {as : List Addr} (h : s.unread = a :: as) :
    s.evSlot (s.resynced s.W) = a ∧ State.unread { s with R := s.resynced s.W + 1#32 } = as := by
  rw [State.unread_eq] at h
  obtain ⟨ha, has⟩ := ring_pop s.evSlot s.W (s.resynced s.W) a as h
  refine ⟨ha, ?_⟩
  have hlen : (s.W - s.resynced s.W).toNat = as.length + 1 := by simpa using congrArg List.length h
  have hmin := s.toNat_W_sub_resynced
  have hle : (s.W - (s.resynced s.W + 1#32)).toNat ≤ s.cfg.evsCap := by
    generalize s.resynced s.W = r at hlen hmin
    bv_omega
  have hr : State.resynced { s with R := s.resynced s.W + 1#32 } s.W = s.resynced s.W + 1#32 :=
    if_neg (Nat.not_lt.2 hle)
  rw [State.unread_eq, hr]
  exact has

/-- With a slot in the ring, no unread record is held only when R = W. -/
theorem State.R_eq_W_of_unread_nil {s : State} (hcap : 0 < s.cfg.evsCap) (h : s.unread = []) : s.R = s.W := by
  have hlen := s.unread_length
  rw [h, List.length_nil, State.gap] at hlen
  bv_omega

theorem State.R_ne_W_of_unread_cons {s : State} {a : Addr} {as : List Addr} (h : s.unread = a :: as) : s.R ≠ s.W := by
  intro hRW
  have hlen := s.unread_length
  simp [h, State.gap, hRW] at hlen

/-! ## One uninterrupted EVENT_DISPATCH (45_audio.md R345) -/

/-- What irq_service asks of a state: no fatal code, no IRQ operation in progress, the interrupt enabled, and a ring with a slot. -/
structure HandlerReady (s : State) : Prop where
  fatal      : s.fatal = none
  irqPhase   : s.irqPhase = .idle
  irqEnabled : s.irqEnabled = true
  evsCap     : 0 < s.cfg.evsCap

/-- The state after a dispatch of the record in the cursor's slot. -/
def State.dispatched (s : State) : State :=
  State.deliver { s with R := s.resynced s.W + 1#32, irqPhase := .delivering (s.evSlot (s.resynced s.W)) }
    (s.evSlot (s.resynced s.W))

theorem HandlerReady.execEventDispatch_empty {s : State} (h : HandlerReady s) (hRW : s.R = s.W) :
    execEventDispatch s = .next (s.answer .irq .empty) := by
  have hrun := exec_go h.fatal (State.admission_eventDispatch_idle h.irqPhase h.irqEnabled)
  have hidle : (s.answer .irq .empty).irqAdvance = s.answer .irq .empty := by
    simp [State.irqAdvance, h.irqPhase]
  rw [effect, State.pollSample_empty hRW, PollFor.emptyResult, hidle, hidle] at hrun
  exact hrun

theorem HandlerReady.execEventDispatch_record {s : State} (h : HandlerReady s) (hRW : s.R ≠ s.W) :
    execEventDispatch s = .next s.dispatched := by
  have hrun := exec_go h.fatal (State.admission_eventDispatch_idle h.irqPhase h.irqEnabled)
  rw [effect, State.pollSample_record hRW] at hrun
  exact hrun

theorem State.deliver_results (s : State) (loc : Addr) :
    (s.deliver loc).results = (.irq, .handled loc (classify s.cfg loc)) :: s.results := by
  rw [State.deliver, State.applyEvent_frame]
  rfl

/-- A dispatch changes the cursor, the results and what the record's effect reaches. -/
theorem State.dispatched_frame (s : State) : s.dispatched = { s with
    R := s.resynced s.W + 1#32, irqPhase := .idle,
    results := (.irq, .handled (s.evSlot (s.resynced s.W)) (classify s.cfg (s.evSlot (s.resynced s.W)))) :: s.results,
    afSlot := s.dispatched.afSlot, afHead := s.dispatched.afHead, ttCrtcIdx := s.dispatched.ttCrtcIdx,
    ttStart := s.dispatched.ttStart, ttCursor := s.dispatched.ttCursor } := by
  unfold State.dispatched
  rw [State.deliver_frame, State.deliver_results]

theorem HandlerReady.dispatched {s : State} (h : HandlerReady s) : HandlerReady s.dispatched := by
  rw [State.dispatched_frame]
  exact ⟨h.fatal, rfl, h.irqEnabled, h.evsCap⟩

/-- A dispatch takes the first unread record held. -/
theorem State.unread_dispatched {s : State} {a : Addr} {as : List Addr} (h : s.unread = a :: as) :
    s.dispatched.unread = as := by
  rw [State.dispatched_frame]
  exact (State.unread_cons h).2

/-! ## The handler (30_encoding.md R103; 60_exceptions.md R386, R390) -/

/-- The results of the dispatches of `as`, in their order, before the earlier results `rs`. -/
def handledResults (c : Cfg) (as : List Addr) (rs : List (Agent × Result)) : List (Agent × Result) :=
  (as.map fun a => (Agent.irq, Result.handled a (classify c a))).reverse ++ rs

/-- The state the handler leaves after the records `as`. -/
structure Drained (s : State) (as : List Addr) (t : State) : Prop where
  R          : t.R = s.W
  W          : t.W = s.W
  irqEnabled : t.irqEnabled = true
  irqPhase   : t.irqPhase = .idle
  shadow     : t.shadow = s.shadow
  perm       : t.perm = s.perm
  results    : t.results = (.irq, .empty) :: handledResults s.cfg as s.results

theorem HandlerReady.drained_nil {s : State} (h : HandlerReady s) (hRW : s.R = s.W) : Drained s [] (s.answer .irq .empty) :=
  ⟨hRW, rfl, h.irqEnabled, h.irqPhase, rfl, rfl, rfl⟩

/-- What the handler leaves after one dispatch is what it leaves after that record and the others. -/
theorem Drained.of_dispatched {s t : State} {a : Addr} {as : List Addr} (hu : s.unread = a :: as)
    (h : Drained s.dispatched as t) : Drained s (a :: as) t := by
  obtain ⟨ha, -⟩ := State.unread_cons hu
  obtain ⟨hR, hW, he, hp, hs, hm, hr⟩ := h
  rw [State.dispatched_frame] at hR hW hs hm hr
  refine ⟨hR, hW, he, hp, hs, hm, ?_⟩
  rw [hr, ha]
  simp [handledResults]

/-- From any ring irq_service handles the unread records held, with one dispatch each and a last one that returns Empty. -/
theorem irqServiceLoop_drains (as : List Addr) : ∀ {s : State} {n : Nat}, HandlerReady s → s.unread = as → as.length < n →
    ∃ t, irqServiceLoop n s = .next t ∧ Drained s as t := by
  induction as with
  | nil =>
    intro s n h hu hn
    obtain ⟨n, rfl⟩ := Nat.exists_eq_add_one_of_ne_zero hn.ne'
    have hRW := State.R_eq_W_of_unread_nil h.evsCap hu
    have hpend : s.pending = false := by simp [State.pending, hRW]
    exact ⟨_, by simp [irqServiceLoop, hpend, h.execEventDispatch_empty hRW], h.drained_nil hRW⟩
  | cons a as ih =>
    intro s n h hu hn
    obtain ⟨n, rfl⟩ := Nat.exists_eq_add_one_of_ne_zero (Nat.ne_of_gt (Nat.zero_lt_of_lt hn))
    have hRW := State.R_ne_W_of_unread_cons hu
    have hpend : s.pending = true := by simp [State.pending, hRW]
    obtain ⟨t, ht, hd⟩ := ih h.dispatched (State.unread_dispatched hu) (Nat.lt_of_succ_lt_succ hn)
    exact ⟨t, by simp [irqServiceLoop, hpend, h.execEventDispatch_record hRW, ht], hd.of_dispatched hu⟩

end Sys2Proof.Machine

namespace Sys2Proof.Proofs

open Sys2Proof.Machine

/-- Settles O28, by induction on the unread records held (`irqServiceLoop_drains`). -/
theorem handlerDrainsTheRing : Obligations.HandlerDrainsTheRing := by
  intro s n hf hwf hp he hn
  obtain ⟨⟨k, hcap, -⟩, -⟩ := (Cfg.wf_iff s.cfg).1 hwf
  have hready : HandlerReady s := ⟨hf, hp, he, hcap ▸ Nat.two_pow_pos k⟩
  obtain ⟨t, ht, hd⟩ := irqServiceLoop_drains s.unread hready rfl (by rwa [State.unread_length])
  have hpend : t.pending = false := by simp [State.pending, hd.R, hd.W]
  exact ⟨t, ht, hd.R, hd.W, hpend, hd.irqEnabled, hd.irqPhase, hd.shadow, hd.perm, hd.results⟩

end Sys2Proof.Proofs

/-! The ShadowBus operations (40_shadowbus.md), O13 to O19. On the bus side a captured write is said field by field, by what
`State.capture` does in each of its cases; on SW's side the tag writes of SET_PERM one by one are `State.tagCells`, which its
sub-actions reach from `fillPhase` on. -/

namespace Sys2Proof.Machine

/-! ## The flags of a tag (30_encoding.md R96; 40_shadowbus.md R132, R142) -/

theorem Perm.qualifies_iff (e : Bool) (p : Perm) :
    Perm.qualifies e p = true ↔ p.getLsbD 1 = true ∨ (p.getLsbD 2 = true ∧ e = true) := by
  unfold Perm.qualifies Perm.write Perm.snoop
  cases p.getLsbD 1 <;> simp

theorem Perm.qualifies_of_write (e : Bool) {p : Perm} (hw : Perm.write p = true) : Perm.qualifies e p = true :=
  (Perm.qualifies_iff e p).2 (.inl hw)

/-- The four tags a bus read is driven from. -/
theorem Perm.mem_readTags : ∀ p : Perm, p ∈ [0b001#3, 0b011#3, 0b101#3, 0b111#3] ↔ p.getLsbD 0 = true := by decide

/-- The four tags that accept a bus write. -/
theorem Perm.mem_writeTags : ∀ p : Perm, p ∈ [0b010#3, 0b011#3, 0b110#3, 0b111#3] ↔ p.getLsbD 1 = true := by decide

/-- The two tags with SNOOP and without WRITE. -/
theorem Perm.mem_snoopTags : ∀ p : Perm, p ∈ [0b100#3, 0b101#3] ↔ p.getLsbD 1 = false ∧ p.getLsbD 2 = true := by decide

/-- The rows of the tag table that enqueue a record are those of the qualifying tags. -/
theorem Perm.qualifies_iff_mem (e : Bool) (p : Perm) : Perm.qualifies e p = true ↔
    p ∈ [0b010#3, 0b011#3, 0b110#3, 0b111#3] ∨ (p ∈ [0b100#3, 0b101#3] ∧ e = true) := by
  rw [Perm.qualifies_iff, Perm.mem_writeTags, Perm.mem_snoopTags]
  cases p.getLsbD 1 <;> simp

/-! ## The capture pipeline (40_shadowbus.md R130-R134) -/

section Capture

variable {s : State} (addr : Addr) (data : Byte)

theorem State.capture_paused (h : s.paused = true) : s.capture addr data = s := by
  simp [State.capture, h]

/-- A write that does not qualify is not accepted either, so it changes nothing. -/
theorem State.capture_not_qualifies (hq : ¬ Perm.qualifies s.cfg.snoopEvent (s.permAt addr) = true) :
    s.capture addr data = s := by
  have hw : ¬ Perm.write (s.permAt addr) = true := fun hw => hq (Perm.qualifies_of_write _ hw)
  simp [State.capture, hq, hw]

/-- A qualifying write is accepted iff the tag has WRITE, and then enqueues its record. -/
theorem State.capture_qualifies (hp : s.paused = false) (hq : Perm.qualifies s.cfg.snoopEvent (s.permAt addr) = true) :
    s.capture addr data = (if Perm.write (s.permAt addr) then s.writeByte addr data else s).enqueue addr := by
  simp [State.capture, hp, hq]

theorem State.readByte_capture (hp : s.paused = false) (a : Addr) : (s.capture addr data).readByte a =
    if a = addr ∧ (s.permAt addr).getLsbD 1 = true then data else s.readByte a := by
  by_cases hq : Perm.qualifies s.cfg.snoopEvent (s.permAt addr) = true
  · have henq (t : State) : (t.enqueue addr).readByte a = t.readByte a := rfl
    rw [State.capture_qualifies addr data hp hq, henq]
    by_cases hw : (s.permAt addr).getLsbD 1 = true
    · have hw' : Perm.write (s.permAt addr) = true := hw
      simp only [hw', hw, if_true, State.readByte_writeByte, and_true]
    · have hw' : ¬ Perm.write (s.permAt addr) = true := hw
      rw [if_neg hw', if_neg (fun h => hw h.2)]
  · have hw : ¬ (s.permAt addr).getLsbD 1 = true := fun hw => hq (Perm.qualifies_of_write _ hw)
    rw [State.capture_not_qualifies addr data hq, if_neg (fun h => hw h.2)]

theorem State.capture_W (hp : s.paused = false) : (s.capture addr data).W =
    if Perm.qualifies s.cfg.snoopEvent (s.permAt addr) = true then s.W + 1#32 else s.W := by
  by_cases hq : Perm.qualifies s.cfg.snoopEvent (s.permAt addr) = true
  · rw [State.capture_qualifies addr data hp hq, if_pos hq, State.enqueue_W]
    split <;> rfl
  · rw [State.capture_not_qualifies addr data hq, if_neg hq]

/-- The record of a qualifying write stands in the slot of W. -/
theorem State.evSlot_capture (hp : s.paused = false) (hq : Perm.qualifies s.cfg.snoopEvent (s.permAt addr) = true)
    (n : Word32) : (s.capture addr data).evSlot n =
      if slotOf n s.cfg.evsCap = slotOf s.W s.cfg.evsCap then addr else s.evSlot n := by
  rw [State.capture_qualifies addr data hp hq, State.evSlot_enqueue]
  split <;> rfl

/-- What a bus read answers: the byte, exactly from a running pipeline and a cell with READ (40_shadowbus.md R133, R134). -/
theorem State.drive_eq : s.drive addr =
    if s.paused = false ∧ (s.permAt addr).getLsbD 0 = true then .driven (s.readByte addr) else .notDriven := by
  unfold State.drive Perm.read
  cases s.paused <;> simp

theorem exec_busWr (hf : s.fatal = none) : exec (.busWr addr data) s = .next (s.capture addr data) :=
  exec_go hf rfl

theorem exec_busRd (hf : s.fatal = none) : exec (.busRd addr) s = .next { s with results :=
    (.bus, if s.paused = false ∧ (s.permAt addr).getLsbD 0 = true then .driven (s.readByte addr) else .notDriven) ::
      s.results } := by
  rw [← State.drive_eq]
  exact exec_go hf rfl

end Capture

/-! ## SW between operations -/

theorem State.admitSw_idle {s : State} (hp : s.swPhase = .idle) : s.admitSw = .go := if_pos hp

theorem State.admission_setPerm_idle {s : State} (hp : s.swPhase = .idle) (f : Perm) (base : Addr) (len : BitVec 17) :
    s.admission (.setPerm f base len) = .go := State.admitSw_idle hp

/-- A selector that names a renderer is admitted like SW's other operations (30_encoding.md R101). -/
theorem exec_setRenderer {s : State} {sel : BitVec 2} {r : Renderer} (hf : s.fatal = none) (hp : s.swPhase = .idle)
    (hr : rendererOf sel = some r) : exec (.setRenderer sel) s = .next { s with rendererCfg := r } := by
  have ha : s.admission (.setRenderer sel) = .go := by
    simp [State.admission, State.admitRenderer, hr, State.admitSw_idle hp]
  rw [exec_go hf ha, effect, hr, Option.getD_some]

/-! ## Tags written cell by cell (40_shadowbus.md R137) -/

/-- The tags of `n` cells from `a` on written one after another: what `n` cell sub-actions of a SET_PERM leave. In a canonical
state it is `State.setTags` (`State.tagCells_eq_setTags`). -/
def State.tagCells (s : State) (f : Perm) (a : Nat) : Nat → State
  | 0 => s
  | n + 1 => (s.setTag f a).tagCells f (a + 1) n

section TagCells

variable (s : State) (f : Perm)

theorem State.permAt_tagCells (n a : Nat) (b : Addr) : (s.tagCells f a n).permAt b =
    if a ≤ b.toNat ∧ b.toNat < a + n then f else s.permAt b := by
  induction n generalizing s a with
  | zero => rw [if_neg (by omega)]; rfl
  | succ n ih =>
    rw [State.tagCells, ih, State.permAt_setTag]
    by_cases hb : b.toNat = a
    · rw [if_neg (by omega), if_pos hb, if_pos (by omega)]
    · by_cases hin : a + 1 ≤ b.toNat ∧ b.toNat < a + 1 + n
      · rw [if_pos hin, if_pos (by omega)]
      · rw [if_neg hin, if_neg hb, if_neg (by omega)]

theorem State.tagCells_frame (n a : Nat) : s.tagCells f a n = { s with perm := (s.tagCells f a n).perm } := by
  induction n generalizing s a with
  | zero => rfl
  | succ n ih => exact ih (s.setTag f a) (a + 1)

/-- Where SW stands has no part in what its tag writes leave. -/
theorem State.tagCells_swPhase (n a : Nat) (p : SwPhase) :
    ({ s with swPhase := p } : State).tagCells f a n = { s.tagCells f a n with swPhase := p } := by
  induction n generalizing s a with
  | zero => rfl
  | succ n ih => exact ih (s.setTag f a) (a + 1)

theorem State.tagCells_eq_setTags (n a : Nat) (hw : Sparse.wfFrom Perm.tagNone 0 s.perm = true) :
    s.tagCells f a n = s.setTags f a n := by
  induction n generalizing s a with
  | zero =>
    have h0 : s.setTags f a 0 = { s with perm := s.perm } :=
      congrArg (fun m => { s with perm := m }) (Sparse.splice_nil hw a)
    exact h0.symm
  | succ n ih =>
    rw [State.tagCells, ih _ _ (Sparse.wfFrom_set a f hw), State.setTags_succ s f a n hw]

end TagCells

/-! ## SET_PERM by sub-actions and whole (40_shadowbus.md R137, R138) -/

/-- Where SW stands with the tags of `n` cells from `a` on left to write, before `k`. -/
def fillPhase (f : Perm) (a n : Nat) (k : FillThen) : SwPhase := if n = 0 then k.phase else .filling f a n k

theorem fillPhase_done_eq_idle (f : Perm) (a n : Nat) : fillPhase f a n .done = .idle ↔ n = 0 := by
  unfold fillPhase FillThen.phase
  split <;> simp [*]

section Fill

variable {s : State} {f : Perm}

theorem State.fillStart_outside {base len : Nat} (k : FillThen) (h : 65536 < base + len) :
    s.fillStart f base len k = { s.raiseFatal (.permRange base len) with swPhase := .idle } := if_pos h

theorem State.fillStart_inside {base len : Nat} (k : FillThen) (h : base + len ≤ 65536) :
    s.fillStart f base len k = { s with swPhase := fillPhase f base len k } := by
  rw [State.fillStart, if_neg (Nat.not_lt.2 h), fillPhase]
  split <;> rfl

/-- A cell sub-action writes the next cell's tag. -/
theorem State.swAdvance_fillPhase {a n : Nat} {k : FillThen} (hp : s.swPhase = fillPhase f a (n + 1) k) :
    s.swAdvance = { s.setTag f a with swPhase := fillPhase f (a + 1) n k } := by
  have hp' : s.swPhase = .filling f a (n + 1) k := hp
  simp [State.swAdvance, hp', fillPhase]

/-- `j` of the `n` cell sub-actions write the tags of the first `j` cells. -/
theorem State.advanceN_fillPhase (j : Nat) {a n : Nat} {k : FillThen} (hp : s.swPhase = fillPhase f a n k)
    (hj : j ≤ n) :
    s.advanceN .sw j = { s.tagCells f a j with swPhase := fillPhase f (a + j) (n - j) k } := by
  induction j generalizing s a n with
  | zero => simp only [State.advanceN, State.tagCells, Nat.add_zero, Nat.sub_zero, ← hp]
  | succ j ih =>
    obtain ⟨n, rfl⟩ := Nat.exists_eq_add_one_of_ne_zero (Nat.ne_of_gt (Nat.zero_lt_of_lt hj))
    rw [State.advanceN, State.advance, State.swAdvance_fillPhase hp, ih rfl (Nat.le_of_succ_le_succ hj),
      State.tagCells_swPhase, State.tagCells, Nat.add_sub_add_right, Nat.add_right_comm a 1 j, Nat.add_assoc a j 1]

/-- From its first sub-action on, a SET_PERM in range has written the tags of the first `j` cells after `j` sub-actions. -/
theorem beginOp_setPerm_inside {base : Addr} {len : BitVec 17} (hf : s.fatal = none) (hp : s.swPhase = .idle)
    (h : base.toNat + len.toNat ≤ 65536) : ∃ t0, beginOp (.setPerm f base len) s = .next t0 ∧ ∀ j, j ≤ len.toNat →
      t0.advanceN .sw j = { s.tagCells f base.toNat j with
        swPhase := fillPhase f (base.toNat + j) (len.toNat - j) .done } := by
  refine ⟨_, beginOp_go hf (State.admission_setPerm_idle hp f base len), fun j hj => ?_⟩
  rw [beginEffect, State.fillStart_inside .done h, State.advanceN_fillPhase j rfl hj, State.tagCells_swPhase]

theorem exec_setPerm_inside {base : Addr} {len : BitVec 17} (hf : s.fatal = none) (hp : s.swPhase = .idle)
    (h : base.toNat + len.toNat ≤ 65536) :
    exec (.setPerm f base len) s = .next (s.setTags f base.toNat len.toNat) := by
  rw [exec_go hf (State.admission_setPerm_idle hp f base len), effect, State.setPerm, if_neg (Nat.not_lt.2 h)]

theorem exec_setPerm_outside {base : Addr} {len : BitVec 17} (hf : s.fatal = none) (hp : s.swPhase = .idle)
    (h : 65536 < base.toNat + len.toNat) :
    exec (.setPerm f base len) s = .next (s.raiseFatal (.permRange base.toNat len.toNat)) := by
  rw [exec_go hf (State.admission_setPerm_idle hp f base len), effect, State.setPerm, if_pos h]

end Fill

theorem State.wfFrom_perm_of_canonical {s : State} (h : s.canonical = true) :
    Sparse.wfFrom Perm.tagNone 0 s.perm = true := by
  simp only [State.canonical, Sparse.wf, Bool.and_eq_true] at h
  obtain ⟨⟨⟨⟨⟨-, hperm, -⟩, -⟩, -⟩, -⟩, -⟩ := h
  exact hperm

end Sys2Proof.Machine

namespace Sys2Proof.Proofs

open Sys2Proof.Machine

/-- Settles O13: the fields of a captured write, by whether it qualifies. -/
theorem busWriteEffect : Obligations.BusWriteEffect := by
  intro s addr data hf
  refine ⟨_, exec_busWr addr data hf, State.capture_frame s addr data, State.capture_paused addr data, fun hp =>
    ⟨State.readByte_capture addr data hp, fun hq => ?record, fun hw hs => ?noRecord⟩⟩
  case record =>
    have hq := (Perm.qualifies_iff s.cfg.snoopEvent (s.permAt addr)).2 hq
    exact ⟨by rw [State.capture_W addr data hp, if_pos hq], State.evSlot_capture addr data hp hq⟩
  case noRecord =>
    have hq : ¬ Perm.qualifies s.cfg.snoopEvent (s.permAt addr) = true := by
      rw [Perm.qualifies_iff]
      rintro (h | ⟨h2, he⟩)
      · exact Bool.false_ne_true (hw.symm.trans h)
      · rcases hs with hs | hs
        · exact Bool.false_ne_true (hs.symm.trans h2)
        · exact Bool.false_ne_true (hs.symm.trans he)
    rw [State.capture_not_qualifies addr data hq]
    exact ⟨rfl, rfl⟩

/-- Settles O14. -/
theorem busReadDrivesReadableCells : Obligations.BusReadDrivesReadableCells := fun _ addr hf => exec_busRd addr hf

/-- Settles O15: the table's columns are the tags with WRITE, the qualifying tags and the tags with READ. -/
theorem tagTable : Obligations.TagTable := by
  intro s addr data hf hp
  refine ⟨⟨_, exec_busWr addr data hf, ?_, ?_⟩, ?_⟩
  · simp only [State.readByte_capture addr data hp, Perm.mem_writeTags, true_and]
  · simp only [State.capture_W addr data hp, Perm.qualifies_iff_mem]
  · simp only [exec_busRd addr hf, Perm.mem_readTags, hp, true_and]

/-- Settles O16: between operations SW's issue goes ahead and leaves the operation's effect. -/
theorem controlRegisterWrites : Obligations.ControlRegisterWrites := by
  intro s hf hp
  have hgo := State.admitSw_idle hp
  exact ⟨exec_go hf hgo, exec_go hf hgo, fun _ => exec_go hf hgo, exec_setRenderer hf hp rfl, exec_setRenderer hf hp rfl,
    exec_setRenderer hf hp rfl, fun _ => exec_go hf hgo⟩

/-- Settles O17: after k cell sub-actions the state is that of k tags written (`beginOp_setPerm_inside`). -/
theorem setPermCellByCell : Obligations.SetPermCellByCell := by
  intro s flags base len hf hp
  refine ⟨fun hout => ?outside, fun hin => ?inside⟩
  case outside =>
    rw [beginOp_go hf (State.admission_setPerm_idle hp flags base len), beginEffect, State.fillStart_outside .done hout, ← hp]
    rfl
  case inside =>
    obtain ⟨t0, ht0, hadv⟩ := beginOp_setPerm_inside (f := flags) hf hp hin
    refine ⟨t0, ht0, fun k hk => ?_⟩
    rw [hadv k hk]
    refine ⟨State.permAt_tagCells s flags k base.toNat, ?_, ?_⟩
    · rw [fillPhase_done_eq_idle]
      omega
    · rw [State.tagCells_frame]

/-- Settles O18: whole, SET_PERM is one `State.setTags`; in a canonical state its cell sub-actions write the same tags
(`State.tagCells_eq_setTags`). -/
theorem setPermEffect : Obligations.SetPermEffect := by
  intro s flags base len hf hp
  refine ⟨fun hin => ?whole, fun hin hc => ?subActions, exec_setPerm_outside hf hp⟩
  case whole =>
    exact ⟨_, exec_setPerm_inside hf hp hin, rfl, State.permAt_setTags s flags base.toNat len.toNat⟩
  case subActions =>
    obtain ⟨t0, ht0, hadv⟩ := beginOp_setPerm_inside (f := flags) hf hp hin
    refine ⟨t0, ht0, ?_⟩
    have hend : fillPhase flags (base.toNat + len.toNat) (len.toNat - len.toNat) .done = s.swPhase := by
      rw [hp, fillPhase_done_eq_idle, Nat.sub_self]
    rw [exec_setPerm_inside hf hp hin, hadv len.toNat le_rfl, hend,
      State.tagCells_eq_setTags s flags len.toNat base.toNat (State.wfFrom_perm_of_canonical hc)]
    rfl

/-- Settles O19: neither accessor reads a tag. -/
theorem shadowAccessors : Obligations.ShadowAccessors := by
  intro s addr data hf hp
  have hgo := State.admitSw_idle hp
  exact ⟨exec_go hf hgo, _, exec_go hf hgo, rfl, fun a => State.readByte_writeByte s addr a data⟩

end Sys2Proof.Proofs

/-! The EventStream's consumer (41_eventstream.md R163-R169), O21 to O23. A run of qualifying writes is said once, by what it
leaves in a slot: the slot's old record if no write of the run uses it (`State.evSlot_captures_unused`), the location of the write
that used it among the last C otherwise (`State.evSlot_captures_recent`). Both a poll caught between its sub-actions and the polls
that drain the ring read slots of such a run. -/

namespace Sys2Proof.Machine

/-! ## Slots of free-running counts -/

/-- For a capacity that divides 2^32, two counts from `n` on share a slot exactly when they agree modulo the capacity. -/
theorem slotOf_add_eq_iff {cap : Nat} (h : cap ∣ 2 ^ 32) (n : Word32) (i j : Nat) :
    slotOf (n + BitVec.ofNat 32 i) cap = slotOf (n + BitVec.ofNat 32 j) cap ↔ i % cap = j % cap := by
  rw [slotOf_add h, slotOf_add h]
  exact ⟨Nat.ModEq.add_left_cancel' n.toNat, Nat.ModEq.add_left n.toNat⟩

/-- The record a whole ring later uses the same slot (41_eventstream.md R166). -/
theorem slotOf_add_cap {cap : Nat} (h : cap ∣ 2 ^ 32) (n : Word32) :
    slotOf (n + BitVec.ofNat 32 cap) cap = slotOf n cap := by
  rw [slotOf_add h, Nat.add_mod_right, slotOf]

/-- Numbers less than `c` apart differ modulo `c`. -/
theorem mod_ne_of_lt_of_lt_add {c i j : Nat} (hij : i < j) (hjc : j < i + c) : j % c ≠ i % c := by
  intro h
  have hz := Nat.sub_mod_eq_zero_of_mod_eq h
  rw [Nat.mod_eq_of_lt (by omega)] at hz
  omega

/-- Among the last `c` numbers below `n` there is one that is `d` modulo `c`. -/
theorem exists_mod_eq_among_last {c d n : Nat} (hdc : d < c) (hdn : d < n) : ∃ i, i < n ∧ i % c = d ∧ n ≤ i + c := by
  have hdiv := Nat.div_add_mod (n - 1 - d) c
  have hlt := Nat.mod_lt (n - 1 - d) (Nat.zero_lt_of_lt hdc)
  refine ⟨d + c * ((n - 1 - d) / c), by omega, ?_, by omega⟩
  rw [Nat.add_mul_mod_self_left, Nat.mod_eq_of_lt hdc]

/-- A well-formed configuration's ring has a slot, at most 2^31 of them, and a number that divides 2^32 (41_eventstream.md R160). -/
theorem evsCap_of_wf {c : Cfg} (h : c.wf = true) : 0 < c.evsCap ∧ c.evsCap ≤ 2 ^ 31 ∧ c.evsCap ∣ 2 ^ 32 := by
  obtain ⟨⟨k, hcap, hk⟩, -⟩ := (Cfg.wf_iff c).1 h
  rw [hcap]
  exact ⟨Nat.two_pow_pos k, Nat.pow_le_pow_right (by decide) hk, Nat.pow_dvd_pow 2 (by omega)⟩

/-! ## A run of qualifying writes (41_eventstream.md R161) -/

theorem State.captures_frame (ws : List (Addr × Byte)) (s : State) : s.captures ws = { s with
    shadow := (s.captures ws).shadow, evbuf := (s.captures ws).evbuf, W := (s.captures ws).W } := by
  induction ws generalizing s with
  | nil => rfl
  | cons p ws ih =>
    rw [State.captures, ih, State.capture_frame]

/-- Outside the fatal state a run of BUS_WR is a run of captures. -/
theorem busWrites_eq_captures (ws : List (Addr × Byte)) {s : State} (hf : s.fatal = none) :
    busWrites ws s = .next (s.captures ws) := by
  induction ws generalizing s with
  | nil => rfl
  | cons p ws ih =>
    have hrun : execBusWr p.1 p.2 s = .next (s.capture p.1 p.2) := exec_busWr p.1 p.2 hf
    have hf' : (s.capture p.1 p.2).fatal = none := by rw [State.capture_frame]; exact hf
    rw [busWrites, hrun]
    exact ih hf'

/-- The pipeline runs and each of the writes qualifies, so that each enqueues a record (40_shadowbus.md R132, R134). -/
structure AllRecorded (s : State) (ws : List (Addr × Byte)) : Prop where
  running   : s.paused = false
  qualifies : ∀ p ∈ ws, Perm.qualifies s.cfg.snoopEvent (s.permAt p.1) = true

section Recorded

variable {s : State} {ws : List (Addr × Byte)}

theorem AllRecorded.head {p : Addr × Byte} (h : AllRecorded s (p :: ws)) :
    Perm.qualifies s.cfg.snoopEvent (s.permAt p.1) = true :=
  h.qualifies p List.mem_cons_self

/-- A capture moves neither a tag nor the pause, so the writes after it are recorded too. -/
theorem AllRecorded.tail {p : Addr × Byte} (h : AllRecorded s (p :: ws)) : AllRecorded (s.capture p.1 p.2) ws := by
  rw [State.capture_frame]
  exact ⟨h.running, fun q hq => h.qualifies q (List.mem_cons_of_mem p hq)⟩

theorem AllRecorded.capture_W {p : Addr × Byte} (h : AllRecorded s (p :: ws)) :
    (s.capture p.1 p.2).W = s.W + 1#32 := by
  rw [State.capture_W p.1 p.2 h.running, if_pos h.head]

theorem State.capture_evsCap (s : State) (a : Addr) (v : Byte) : (s.capture a v).cfg.evsCap = s.cfg.evsCap := by
  rw [State.capture_frame]

theorem State.captures_evsCap (s : State) (ws : List (Addr × Byte)) : (s.captures ws).cfg.evsCap = s.cfg.evsCap := by
  rw [State.captures_frame]

theorem State.captures_W (h : AllRecorded s ws) : (s.captures ws).W = s.W + BitVec.ofNat 32 ws.length := by
  induction ws generalizing s with
  | nil => simp [State.captures]
  | cons p ws ih =>
    rw [State.captures, ih h.tail, h.capture_W, index_after_pop, List.length_cons]

/-- A slot that no write of the run uses keeps its record. -/
theorem State.evSlot_captures_unused (h : AllRecorded s ws) (n : Word32)
    (hn : ∀ i < ws.length, slotOf (s.W + BitVec.ofNat 32 i) s.cfg.evsCap ≠ slotOf n s.cfg.evsCap) :
    (s.captures ws).evSlot n = s.evSlot n := by
  induction ws generalizing s with
  | nil => rfl
  | cons p ws ih =>
    have h0 : slotOf n s.cfg.evsCap ≠ slotOf s.W s.cfg.evsCap := by
      simpa using (hn 0 (Nat.zero_lt_succ _)).symm
    have hrest : ∀ i < ws.length, slotOf ((s.capture p.1 p.2).W + BitVec.ofNat 32 i) (s.capture p.1 p.2).cfg.evsCap ≠
        slotOf n (s.capture p.1 p.2).cfg.evsCap := by
      intro i hi
      rw [h.capture_W, State.capture_evsCap, index_after_pop]
      exact hn (i + 1) (Nat.succ_lt_succ hi)
    rw [State.captures, ih h.tail hrest, State.evSlot_capture p.1 p.2 h.running h.head, if_neg h0]

/-- Of the last C writes of the run, the one that used a slot left its location there. -/
theorem State.evSlot_captures_recent (h : AllRecorded s ws) (hcap : s.cfg.evsCap ∣ 2 ^ 32) {n : Word32} {i : Nat}
    (hi : i < ws.length) (hlast : ws.length ≤ i + s.cfg.evsCap)
    (hn : slotOf n s.cfg.evsCap = slotOf (s.W + BitVec.ofNat 32 i) s.cfg.evsCap) :
    (s.captures ws).evSlot n = ws[i].1 := by
  induction ws generalizing s i with
  | nil => exact absurd hi (Nat.not_lt_zero i)
  | cons p ws ih =>
    rw [List.length_cons] at hi hlast
    cases i with
    | zero =>
      have hrest : ∀ j < ws.length, slotOf ((s.capture p.1 p.2).W + BitVec.ofNat 32 j) (s.capture p.1 p.2).cfg.evsCap ≠
          slotOf n (s.capture p.1 p.2).cfg.evsCap := by
        intro j hj
        rw [h.capture_W, State.capture_evsCap, index_after_pop, hn, ne_eq, slotOf_add_eq_iff hcap]
        exact mod_ne_of_lt_of_lt_add (Nat.zero_lt_succ j) (by omega)
      rw [State.captures, State.evSlot_captures_unused h.tail n hrest, State.evSlot_capture p.1 p.2 h.running h.head,
        if_pos (by simpa using hn)]
      rfl
    | succ i =>
      refine ih h.tail (by rwa [State.capture_evsCap]) (Nat.lt_of_succ_lt_succ hi) ?_ ?_
      · rw [State.capture_evsCap]; omega
      · rw [h.capture_W, State.capture_evsCap, index_after_pop, hn]

section EmptyRing

variable (h : AllRecorded s ws) (hRW : s.R = s.W) (hlen : ws.length < 2 ^ 32)
include h hRW hlen

/-- After a run of K < 2^32 writes into an empty ring, the gap is K (41_eventstream.md R162, R170). -/
theorem State.gap_captures : (s.captures ws).gap.toNat = ws.length := by
  have hR : (s.captures ws).R = s.W := by rw [State.captures_frame]; exact hRW
  rw [State.gap, State.captures_W h, hR]
  bv_omega

theorem State.unread_captures_length : (s.captures ws).unread.length = min ws.length s.cfg.evsCap := by
  rw [State.unread_length, State.gap_captures h hRW hlen, State.captures_evsCap]

/-- The unread records held after such a run are its last min(K, C) writes. -/
theorem State.unread_captures (hcap : s.cfg.evsCap ∣ 2 ^ 32) :
    (s.captures ws).unread = (ws.drop (ws.length - min ws.length s.cfg.evsCap)).map Prod.fst := by
  have hm : min ws.length s.cfg.evsCap ≤ ws.length := Nat.min_le_left _ _
  have hcount := State.unread_captures_length h hRW hlen
  refine List.ext_getElem ?_ fun i hi _ => ?_
  · rw [hcount, List.length_map, List.length_drop]
    omega
  · rw [hcount] at hi
    have hn : s.W + BitVec.ofNat 32 ws.length - BitVec.ofNat 32 (min ws.length s.cfg.evsCap) + BitVec.ofNat 32 i =
        s.W + BitVec.ofNat 32 (ws.length - min ws.length s.cfg.evsCap + i) := by
      generalize min ws.length s.cfg.evsCap = m at hm hi
      bv_omega
    simp only [State.unread, List.getElem_map, List.getElem_range, List.getElem_drop, State.gap_captures h hRW hlen,
      State.captures_evsCap, State.captures_W h, hn]
    exact State.evSlot_captures_recent h hcap (by omega) (by omega) rfl

end EmptyRing

end Recorded

/-! ## POLL_EVENT (41_eventstream.md R163-R165) -/

/-- The state between the sub-actions of a poll that found a record. -/
def State.sampled (s : State) : State := { s with R := s.resynced s.W, irqPhase := .polling s.W .poll }

/-- The state after an uninterrupted poll of the record in the cursor's slot. -/
def State.polled (s : State) : State :=
  { s with R := s.resynced s.W + 1#32, results := (.irq, .polled (some (s.evSlot (s.resynced s.W)))) :: s.results }

section Poll

variable {s : State}

/-- Sub-action (2) answers what the cursor's slot holds now and advances R. -/
theorem State.irqAdvance_polling {w : Word32} (hp : s.irqPhase = .polling w .poll) : s.irqAdvance = { s with
    R := s.R + 1#32, irqPhase := .idle, results := (.irq, .polled (some (s.evSlot s.R))) :: s.results } := by
  simp only [State.irqAdvance, hp]
  rfl

theorem State.irqAdvance_idle (hp : s.irqPhase = .idle) : s.irqAdvance = s := by
  simp only [State.irqAdvance, hp]

/-- A poll is admitted like a dispatch (60_exceptions.md R384, R386). -/
theorem State.admission_pollEvent_idle (hp : s.irqPhase = .idle) (he : s.irqEnabled = true) :
    s.admission .pollEvent = .go :=
  State.admission_eventDispatch_idle hp he

theorem beginOp_pollEvent_empty (hf : s.fatal = none) (hp : s.irqPhase = .idle) (he : s.irqEnabled = true)
    (hRW : s.R = s.W) : beginOp .pollEvent s = .next (s.answer .irq (.polled none)) := by
  rw [beginOp_go hf (State.admission_pollEvent_idle hp he), beginEffect, State.pollSample_empty hRW, PollFor.emptyResult]

theorem beginOp_pollEvent_record (hf : s.fatal = none) (hp : s.irqPhase = .idle) (he : s.irqEnabled = true)
    (hRW : s.R ≠ s.W) : beginOp .pollEvent s = .next s.sampled := by
  rw [beginOp_go hf (State.admission_pollEvent_idle hp he), beginEffect, State.pollSample_record hRW, State.sampled]

theorem exec_pollEvent_empty (hf : s.fatal = none) (hp : s.irqPhase = .idle) (he : s.irqEnabled = true)
    (hRW : s.R = s.W) : exec .pollEvent s = .next (s.answer .irq (.polled none)) := by
  rw [exec_go hf (State.admission_pollEvent_idle hp he), effect, State.pollSample_empty hRW, PollFor.emptyResult,
    State.irqAdvance_idle (s := s.answer .irq (.polled none)) hp]

theorem exec_pollEvent_record (hf : s.fatal = none) (hp : s.irqPhase = .idle) (he : s.irqEnabled = true)
    (hRW : s.R ≠ s.W) : exec .pollEvent s = .next s.polled := by
  rw [exec_go hf (State.admission_pollEvent_idle hp he), effect, State.pollSample_record hRW,
    State.irqAdvance_polling rfl, ← hp]
  rfl

end Poll

/-! ## Successive polls (41_eventstream.md R169) -/

/-- The results of the polls that return `as`, in their order, before the earlier results `rs`. -/
def polledResults (as : List Addr) (rs : List (Agent × Result)) : List (Agent × Result) :=
  (as.map fun a => (Agent.irq, Result.polled (some a))).reverse ++ rs

theorem polledResults_cons (a : Addr) (as : List Addr) (rs : List (Agent × Result)) :
    polledResults (a :: as) rs = polledResults as ((.irq, .polled (some a)) :: rs) := by
  simp [polledResults]

theorem pollLoop_succ {s t : State} (n : Nat) (h : exec .pollEvent s = .next t) : pollLoop (n + 1) s = pollLoop n t := by
  have h' : execPollEvent s = .next t := h
  rw [pollLoop, h']

/-- A poll asks of a state what the handler asks, and keeps it. -/
theorem HandlerReady.polled {s : State} (h : HandlerReady s) : HandlerReady s.polled :=
  ⟨h.fatal, h.irqPhase, h.irqEnabled, h.evsCap⟩

/-- As many polls as records are held return them, oldest first, and one more returns None. -/
theorem pollLoop_drains (as : List Addr) {s : State} (h : HandlerReady s) (hu : s.unread = as) :
    pollLoop (as.length + 1) s =
      .next { s with R := s.W, results := (.irq, .polled none) :: polledResults as s.results } := by
  induction as generalizing s with
  | nil =>
    have hRW := State.R_eq_W_of_unread_nil h.evsCap hu
    rw [pollLoop_succ _ (exec_pollEvent_empty h.fatal h.irqPhase h.irqEnabled hRW)]
    exact congrArg (fun r => Host.Outcome.next { s with R := r, results := (.irq, .polled none) :: s.results }) hRW
  | cons a as ih =>
    obtain ⟨ha, -⟩ := State.unread_cons hu
    have hu' : s.polled.unread = as := (State.unread_cons hu).2
    rw [List.length_cons,
      pollLoop_succ _ (exec_pollEvent_record h.fatal h.irqPhase h.irqEnabled (State.R_ne_W_of_unread_cons hu)),
      ih h.polled hu', polledResults_cons, ← ha]
    rfl

/-! ## The slot race (41_eventstream.md R166) -/

/-- `d = r + C - w`: how many records a poll that sampled `w` can let pass before its record `r` is overwritten. -/
def State.raceDistance (s : State) : Nat := (s.resynced s.W + BitVec.ofNat 32 s.cfg.evsCap - s.W).toNat

section SlotRace

variable {s : State} {ws : List (Addr × Byte)}

/-- On a ring that is not empty the resynchronised cursor is at least one record behind W. -/
theorem State.raceDistance_lt (hcap : 0 < s.cfg.evsCap ∧ s.cfg.evsCap ≤ 2 ^ 31) (hRW : s.R ≠ s.W) :
    s.raceDistance < s.cfg.evsCap := by
  have hmin := s.toNat_W_sub_resynced
  have hgap : 0 < s.gap.toNat := by
    unfold State.gap
    bv_omega
  unfold State.raceDistance
  generalize s.resynced s.W = r at hmin ⊢
  bv_omega

/-- The cursor's slot is next used by record number W + d, so write number i uses it iff i mod C = d. -/
theorem State.slotOf_write_eq_cursor_iff (hdvd : s.cfg.evsCap ∣ 2 ^ 32) (hd : s.raceDistance < s.cfg.evsCap) (i : Nat) :
    slotOf (s.W + BitVec.ofNat 32 i) s.cfg.evsCap = slotOf (s.resynced s.W) s.cfg.evsCap ↔
      i % s.cfg.evsCap = s.raceDistance := by
  have hnext : s.W + BitVec.ofNat 32 s.raceDistance = s.resynced s.W + BitVec.ofNat 32 s.cfg.evsCap := index_of_head _ _
  rw [← slotOf_add_cap hdvd (s.resynced s.W), ← hnext, slotOf_add_eq_iff hdvd, Nat.mod_eq_of_lt hd]

/-- The sampled record survives d writes. -/
theorem State.evSlot_sampled_captures_few (h : AllRecorded s.sampled ws) (hdvd : s.cfg.evsCap ∣ 2 ^ 32)
    (hd : s.raceDistance < s.cfg.evsCap) (hfew : ws.length ≤ s.raceDistance) :
    (s.sampled.captures ws).evSlot (s.resynced s.W) = s.evSlot (s.resynced s.W) := by
  refine State.evSlot_captures_unused h _ fun i hi hslot => ?_
  have hid : i % s.cfg.evsCap = s.raceDistance := (State.slotOf_write_eq_cursor_iff hdvd hd i).1 hslot
  rw [Nat.mod_eq_of_lt (by omega)] at hid
  omega

/-- Past d writes the poll reads the newest one that used the slot. -/
theorem State.evSlot_sampled_captures_newest (h : AllRecorded s.sampled ws) (hdvd : s.cfg.evsCap ∣ 2 ^ 32)
    (hd : s.raceDistance < s.cfg.evsCap) {i : Nat} (hi : i < ws.length) (hid : i % s.cfg.evsCap = s.raceDistance)
    (hlast : ws.length ≤ i + s.cfg.evsCap) :
    (s.sampled.captures ws).evSlot (s.resynced s.W) = ws[i].1 :=
  State.evSlot_captures_recent h hdvd hi hlast ((State.slotOf_write_eq_cursor_iff hdvd hd i).2 hid).symm

/-- The interrupted poll answers what the cursor's slot holds after the writes. -/
theorem State.advance_sampled_captures_results (s : State) (ws : List (Addr × Byte)) :
    ((s.sampled.captures ws).advance .irq).results =
      (.irq, .polled (some ((s.sampled.captures ws).evSlot (s.resynced s.W)))) :: s.results := by
  have hphase : (s.sampled.captures ws).irqPhase = .polling s.W .poll := by rw [State.captures_frame]; rfl
  have hR : (s.sampled.captures ws).R = s.resynced s.W := by rw [State.captures_frame]; rfl
  have hres : (s.sampled.captures ws).results = s.results := by rw [State.captures_frame]; rfl
  rw [State.advance, State.irqAdvance_polling hphase, hR, hres]

end SlotRace

end Sys2Proof.Machine

namespace Sys2Proof.Proofs

open Sys2Proof.Machine

/-- Settles O21: the cases of a poll, by whether R = W; the resynchronised cursor is `State.resynced`. -/
theorem pollEventEffect : Obligations.PollEventEffect := by
  refine ⟨fun s hf hp he hRW => ?empty, fun s r hf hp he hRW hr => ?record, fun s w hp => State.irqAdvance_polling hp⟩
  case empty => exact ⟨exec_pollEvent_empty hf hp he hRW, beginOp_pollEvent_empty hf hp he hRW⟩
  case record =>
    subst hr
    exact ⟨exec_pollEvent_record hf hp he hRW, beginOp_pollEvent_record hf hp he hRW⟩

/-- Settles O22: write number i uses the cursor's slot iff i mod C = d (`State.slotOf_write_eq_cursor_iff`), and the poll reads
that slot after the writes. -/
theorem pollSlotRace : Obligations.PollSlotRace := by
  intro s t0 ws hf hwf hpause hp he hRW ht0 hq
  obtain ⟨hpos, hle, hdvd⟩ := evsCap_of_wf hwf
  rw [beginOp_pollEvent_record hf hp he hRW] at ht0
  cases ht0
  have hd := State.raceDistance_lt ⟨hpos, hle⟩ hRW
  have hrec : AllRecorded s.sampled ws := ⟨hpause, hq⟩
  exact ⟨s.raceDistance, (s.sampled.captures ws).evSlot (s.resynced s.W), rfl, hd,
    State.advance_sampled_captures_results s ws, State.evSlot_sampled_captures_few hrec hdvd hd,
    fun _ => State.evSlot_sampled_captures_newest hrec hdvd hd, exists_mod_eq_among_last hd⟩

/-- Settles O23: the writes leave their last min(K, C) records unread (`State.unread_captures`), which the polls drain
(`pollLoop_drains`). -/
theorem retrievalCount : Obligations.RetrievalCount := by
  intro s ws hf hwf hpause hp he hRW hlen hq
  obtain ⟨hpos, -, hdvd⟩ := evsCap_of_wf hwf
  have hrec : AllRecorded s ws := ⟨hpause, hq⟩
  have hready : HandlerReady (s.captures ws) := by
    rw [State.captures_frame]
    exact ⟨hf, hp, he, hpos⟩
  have hpolls := pollLoop_drains _ hready rfl
  rw [State.unread_captures_length hrec hRW hlen] at hpolls
  refine ⟨_, _, busWrites_eq_captures ws hf, hpolls, rfl, ?_⟩
  have hres : (s.captures ws).results = s.results := by rw [State.captures_frame]
  rw [State.unread_captures hrec hRW hlen hdvd, polledResults, List.map_map, hres]
  rfl

end Sys2Proof.Proofs

/-! The line functions as functions of the bytes a line reads (42_scanline_pipeline.md R195, R206, R207), O36 and O37. For each
renderer: where its border is; that an enabled pixel has the value of the bytes known (`linePixel_of_ready`); and that once a line
has made its reads, every pixel is enabled (`linePixelReady_of_allRead`) and the bookkeeping is fixed (`State.commitLine_of_allRead`). -/

namespace Sys2Proof.Machine

variable {known fewer : LineRead → Option Byte} {rd rd' : LineRead → Byte}

/-- What the bytes known make of each read; 0 stands for a read not made. -/
def knownByte (known : LineRead → Option Byte) (r : LineRead) : Byte := (known r).getD 0#8

/-- `rd` agrees with the bytes known. -/
def Returned (known : LineRead → Option Byte) (rd : LineRead → Byte) : Prop := ∀ r v, known r = some v → rd r = v

theorem knownByte_of_some {r : LineRead} {v : Byte} (h : known r = some v) : knownByte known r = v := by
  simp [knownByte, h]

theorem Returned.eq_knownByte (h : Returned known rd) {r : LineRead} (hr : (known r).isSome = true) :
    rd r = knownByte known r := by
  obtain ⟨v, hv⟩ := Option.isSome_iff_exists.1 hr
  rw [h r v hv, knownByte_of_some hv]

/-- Every read the line makes has been made. -/
def AllRead (c : Cfg) (x : LineCtx) (known : LineRead → Option Byte) : Prop :=
  ∀ r ∈ lineReads c x known, (known r).isSome = true

/-! ## The VDG line (43_scanline_decode.md R230-R250) -/

section Vdg

variable {c : VdgCfg} {x : LineCtx} {p : Nat}

theorem vdgPixel_border (h : (vdgActive c x.target && vdgInSpan c p) = false) : vdgPixel c x rd p = c.border := by
  simp [vdgPixel, h]

theorem vdgPixelReady_border (h : (vdgActive c x.target && vdgInSpan c p) = false) :
    vdgPixelReady c x known p = true := by
  simp [vdgPixelReady, h]

/-- Before its first read a line can write border pixels only. -/
theorem outside_of_vdgPixelReady (h : vdgPixelReady c x (fun _ => none) p = true) :
    (vdgActive c x.target && vdgInSpan c p) = false := by
  by_contra hin
  simp [vdgPixelReady, Bool.eq_true_of_not_eq_false hin] at h

/-- A dot of a semigraphics cell does not look at the alternate-palette bit. -/
theorem textDot_css (cell : CharCell) (hcell : ∀ bank idx inv, cell ≠ .alpha bank idx inv) (css css' s i : Nat) :
    textDot c css cell s i = textDot c css' cell s i := by
  cases cell with
  | alpha bank idx inv => exact absurd rfl (hcell bank idx inv)
  | semi4 | semi6 => rfl

theorem vdgPixel_of_ready (hp : vdgPixelReady c x known p = true) (hrd : Returned known rd) :
    vdgPixel c x rd p = vdgPixel c x (knownByte known) p := by
  cases hin : vdgActive c x.target && vdgInSpan c p with
  | false => rw [vdgPixel_border hin, vdgPixel_border hin]
  | true =>
    cases hmode : known .mode with
    | none => simp [vdgPixelReady, hin, hmode] at hp
    | some b =>
      simp only [vdgPixelReady, hin, hmode, if_true] at hp
      simp only [vdgPixel, hin, if_true, hrd _ _ hmode, knownByte_of_some hmode]
      cases hv : vdgVariant c (vdgNibble c b) with
      | border => rfl
      | gfx g =>
        simp only [hv, Bool.and_eq_true] at hp ⊢
        rw [hrd.eq_knownByte hp.1, hrd.eq_knownByte hp.2]
      | text =>
        cases hrow : known (.row (textColumnOf c p)) with
        | none => simp [hv, hrow] at hp
        | some ch =>
          simp only [hv, hrow, hrd _ _ hrow, knownByte_of_some hrow] at hp ⊢
          cases hcell : charCell c ch with
          | alpha bank idx inv => rw [hrd.eq_knownByte (by simpa [hcell] using hp)]
          | semi4 | semi6 => exact textDot_css _ (by simp) _ _ _ _

/-- The column of a pixel of the span is one of the 32 of a text line (43_scanline_decode.md R249). -/
theorem textColumnOf_lt (h : vdgInSpan c p = true) : textColumnOf c p < 32 := by
  simp only [vdgInSpan, Bool.and_eq_true, decide_eq_true_eq] at h
  have hdot : (p - c.hStart) / c.xscale < 256 := Nat.div_lt_of_lt_mul (by rw [Nat.mul_comm]; omega)
  unfold textColumnOf
  omega

/-- The row byte of a pixel of the span lies within the mode's stride (43_scanline_decode.md R241). -/
theorem gfxByteOf_lt (g : Geometry) (h : vdgInSpan c p = true) : gfxByteOf c g p < g.stride := by
  simp only [vdgInSpan, Bool.and_eq_true, decide_eq_true_eq] at h
  have hdot : (p - c.hStart) / gfxReplication c g < g.hRes.pixels := by
    refine Nat.div_lt_of_lt_mul ?_
    have hwidth : gfxReplication c g * g.hRes.pixels = 256 * c.xscale := by
      cases hres : g.hRes <;> simp only [gfxReplication, hres, HRes.pixels] <;> omega
    omega
  have hbits : 0 < g.bpp.bits := by cases g.bpp <;> decide
  have hbytes : 8 ∣ g.hRes.pixels * g.bpp.bits := by cases g.hRes <;> cases g.bpp <;> decide
  exact Nat.div_lt_div_of_lt_of_dvd hbytes (Nat.mul_lt_mul_of_pos_right hdot hbits)

theorem mode_mem_vdgReads (h : vdgActive c x.target = true) : .mode ∈ vdgReads c x known := by simp [vdgReads, h]

theorem css_mem_vdgReads (h : vdgActive c x.target = true) : .css ∈ vdgReads c x known := by simp [vdgReads, h]

theorem row_mem_vdgReads {b : Byte} {k : Nat} (h : vdgActive c x.target = true) (hmode : known .mode = some b)
    (hk : k < (vdgVariant c (vdgNibble c b)).stride) : .row k ∈ vdgReads c x known := by
  simp [vdgReads, h, hmode, hk]

theorem vdgReads_mono (h : ∀ q v, fewer q = some v → known q = some v) {r : LineRead} (hr : r ∈ vdgReads c x known) :
    r ∈ vdgReads c x fewer := by
  cases hact : vdgActive c x.target with
  | false => simp [vdgReads, hact] at hr
  | true =>
    cases hf : fewer .mode with
    | some b => simpa [vdgReads, hact, hf, h _ _ hf] using hr
    | none =>
      simp only [vdgReads, hact, hf, if_true, List.mem_append, List.mem_map, List.mem_range] at hr ⊢
      refine hr.imp_right fun ⟨k, hk, e⟩ => ⟨k, ?_, e⟩
      cases hm : known .mode with
      | none => rwa [hm] at hk
      | some b =>
        rw [hm] at hk
        exact hk.trans_le (vdgVariant_stride_le c _)

theorem vdgPixelReady_of_allRead (h : ∀ r ∈ vdgReads c x known, (known r).isSome = true) :
    vdgPixelReady c x known p = true := by
  cases hin : vdgActive c x.target && vdgInSpan c p with
  | false => exact vdgPixelReady_border hin
  | true =>
    obtain ⟨hact, hspan⟩ := Bool.and_eq_true_iff.1 hin
    obtain ⟨b, hmode⟩ := Option.isSome_iff_exists.1 (h _ (mode_mem_vdgReads hact))
    have hcss := h _ (css_mem_vdgReads hact)
    have hrow {k : Nat} (hk : k < (vdgVariant c (vdgNibble c b)).stride) := h _ (row_mem_vdgReads hact hmode hk)
    simp only [vdgPixelReady, hin, hmode, if_true]
    cases hv : vdgVariant c (vdgNibble c b) with
    | border => rfl
    | gfx g => simp [hcss, hrow (k := gfxByteOf c g p) (by simpa [hv, VdgVariant.stride] using gfxByteOf_lt g hspan)]
    | text =>
      obtain ⟨ch, hch⟩ := Option.isSome_iff_exists.1
        (hrow (k := textColumnOf c p) (by simpa [hv, VdgVariant.stride] using textColumnOf_lt hspan))
      simp only [hch]
      cases charCell c ch with
      | alpha bank idx inv => exact hcss
      | semi4 | semi6 => rfl

theorem vdgCommit_congr (s : State) (h : vdgActive s.cfg.vdg x.target = true → rd .mode = rd' .mode) :
    vdgCommit s x rd = vdgCommit s x rd' := by
  cases hact : vdgActive s.cfg.vdg x.target with
  | false => simp [vdgCommit, hact]
  | true => simp [vdgCommit, hact, h hact]

/-- The mode nibble as the byte's field (43_scanline_decode.md R231). -/
theorem vdgNibble_eq (b : Byte) : vdgNibble c b = BitVec.ofNat 4 (b.toNat / 2 ^ c.modeShift) := by
  apply BitVec.eq_of_toNat_eq
  simp [vdgNibble, Nat.shiftRight_eq_div_pow]

/-- A mode with bit 0 set and no graphics geometry is border (43_scanline_decode.md R232, R250). -/
theorem vdgVariant_border {m : BitVec 4} (hodd : m.toNat % 2 = 1) (hm : modeEntry c.modeTable m.toNat = none) :
    vdgVariant c m = .border := by
  have hbit : m.getLsbD 0 = true := by simp [BitVec.getLsbD, Nat.testBit_zero, hodd]
  simp [vdgVariant, hbit, hm]

theorem vdgPixel_of_border (h : vdgVariant c (vdgNibble c (rd .mode)) = .border) : vdgPixel c x rd p = c.border := by
  simp [vdgPixel, h]

end Vdg

/-! ## The teletext line (44_teletext.md R280-R300) -/

section Teletext

variable {c : TtCfg} {x : LineCtx} {p : Nat}

theorem ttPixel_border (h : (ttActive c x.target && ttInSpan c p) = false) : ttPixel c x rd p = c.border := by
  simp [ttPixel, h]

theorem ttPixelReady_border (h : (ttActive c x.target && ttInSpan c p) = false) : ttPixelReady c x known p = true := by
  simp [ttPixelReady, h]

theorem ttKnownBelow_iff {n : Nat} : ttKnownBelow known n = true ↔ ∀ i < n, (known (.cell i)).isSome = true := by
  simp [ttKnownBelow]

/-- Before its first read a line can write border pixels only. -/
theorem outside_of_ttPixelReady (h : ttPixelReady c x (fun _ => none) p = true) :
    (ttActive c x.target && ttInSpan c p) = false := by
  by_contra hin
  simp only [ttPixelReady, Bool.eq_true_of_not_eq_false hin, if_true, ttKnownBelow_iff] at h
  simpa using h 0 (Nat.succ_pos _)

/-- The scan state before a column depends on the columns before it alone (44_teletext.md R282). -/
theorem scanBefore_congr {n : Nat} (h : ∀ i < n, rd (.cell i) = rd' (.cell i)) : scanBefore rd n = scanBefore rd' n := by
  induction n with
  | zero => rfl
  | succ n ih => rw [scanBefore, scanBefore, ih fun i hi => h i (by omega), h n (by omega)]

theorem ttCell_congr {col : Nat} (h : ∀ i < col + 1, rd (.cell i) = rd' (.cell i)) : ttCell c x rd col = ttCell c x rd' col := by
  simp only [ttCell, h col (by omega), scanBefore_congr fun i hi => h i (Nat.lt_succ_of_lt hi)]

theorem ttPixel_of_ready (hp : ttPixelReady c x known p = true) (hrd : Returned known rd) :
    ttPixel c x rd p = ttPixel c x (knownByte known) p := by
  cases hin : ttActive c x.target && ttInSpan c p with
  | false => rw [ttPixel_border hin, ttPixel_border hin]
  | true =>
    simp only [ttPixelReady, hin, if_true, ttKnownBelow_iff] at hp
    simp only [ttPixel, hin, if_true, ttCell_congr fun i hi => hrd.eq_knownByte (hp i hi)]

/-- The column of a pixel of the span is one of the 40 (44_teletext.md R280). -/
theorem ttColumnOf_lt (h : ttInSpan c p = true) : ttColumnOf c p < Config.ttCols := by
  simp only [ttInSpan, Bool.and_eq_true, decide_eq_true_eq] at h
  simp only [Config.ttCols, Config.ttCellW] at h ⊢
  have hdot : (p - c.hStart) / c.xscale < 480 := Nat.div_lt_of_lt_mul (by rw [Nat.mul_comm]; omega)
  unfold ttColumnOf Config.ttCellW
  omega

theorem cell_mem_ttReads {col : Nat} (h : ttActive c x.target = true) (hcol : col < Config.ttCols) :
    .cell col ∈ ttReads c x := by
  simp [ttReads, h, hcol]

theorem ttPixelReady_of_allRead (h : ∀ r ∈ ttReads c x, (known r).isSome = true) : ttPixelReady c x known p = true := by
  cases hin : ttActive c x.target && ttInSpan c p with
  | false => exact ttPixelReady_border hin
  | true =>
    obtain ⟨hact, hspan⟩ := Bool.and_eq_true_iff.1 hin
    have hcol := ttColumnOf_lt hspan
    simp only [ttPixelReady, hin, if_true, ttKnownBelow_iff]
    exact fun i hi => h _ (cell_mem_ttReads hact (by omega))

theorem ttCommit_congr (s : State)
    (h : ttActive s.cfg.tt x.target = true → ∀ i < Config.ttCols, rd (.cell i) = rd' (.cell i)) :
    ttCommit s x rd = ttCommit s x rd' := by
  cases hact : ttActive s.cfg.tt x.target with
  | false => simp [ttCommit, hact]
  | true => simp [ttCommit, hact, scanBefore_congr (h hact)]

end Teletext

/-! ## The attributed 80-column line (43_scanline_decode.md R255-R259) -/

section Attr80

variable {c : A80Cfg} {x : LineCtx} {p : Nat}

theorem a80Pixel_border (h : (a80Active c x.target && a80InSpan c p) = false) : a80Pixel c x rd p = c.border := by
  simp [a80Pixel, h]

theorem a80PixelReady_border (h : (a80Active c x.target && a80InSpan c p) = false) :
    a80PixelReady c x known p = true := by
  simp [a80PixelReady, h]

/-- Before its first read a line can write border pixels only. -/
theorem outside_of_a80PixelReady (h : a80PixelReady c x (fun _ => none) p = true) :
    (a80Active c x.target && a80InSpan c p) = false := by
  by_contra hin
  simp [a80PixelReady, Bool.eq_true_of_not_eq_false hin] at h

theorem a80Pixel_of_ready (hp : a80PixelReady c x known p = true) (hrd : Returned known rd) :
    a80Pixel c x rd p = a80Pixel c x (knownByte known) p := by
  cases hin : a80Active c x.target && a80InSpan c p with
  | false => rw [a80Pixel_border hin, a80Pixel_border hin]
  | true =>
    cases hc1 : known .ctrl1 with
    | none => simp [a80PixelReady, hin, hc1] at hp
    | some c1 =>
      simp only [a80PixelReady, hin, hc1, if_true, Bool.and_eq_true] at hp
      obtain ⟨hch, hstyle⟩ := hp
      have hst : a80Style rd ((p - c.hStart) / 8) = a80Style (knownByte known) ((p - c.hStart) / 8) := by
        cases haen : a80AttrEnable c1 <;> rw [haen] at hstyle <;>
          simp [a80Style, hrd _ _ hc1, knownByte_of_some hc1, haen, hrd.eq_knownByte hstyle]
      simp only [a80Pixel, hin, if_true, hst, hrd.eq_knownByte hch, hrd _ _ hc1, knownByte_of_some hc1]

theorem ctrl0_mem_a80Reads (h : a80Active c x.target = true) : .ctrl0 ∈ a80Reads c x known := by simp [a80Reads, h]

theorem ctrl1_mem_a80Reads (h : a80Active c x.target = true) : .ctrl1 ∈ a80Reads c x known := by simp [a80Reads, h]

theorem ch_mem_a80Reads {col : Nat} (h : a80Active c x.target = true) (hcol : col < 80) : .ch col ∈ a80Reads c x known := by
  simp [a80Reads, h, hcol]

theorem attr_mem_a80Reads {c1 : Byte} {col : Nat} (h : a80Active c x.target = true) (hc1 : known .ctrl1 = some c1)
    (haen : a80AttrEnable c1 = true) (hcol : col < 80) : .attr col ∈ a80Reads c x known := by
  simp [a80Reads, h, hc1, haen, hcol]

theorem a80Reads_mono (h : ∀ q v, fewer q = some v → known q = some v) {r : LineRead} (hr : r ∈ a80Reads c x known) :
    r ∈ a80Reads c x fewer := by
  cases hact : a80Active c x.target with
  | false => simp [a80Reads, hact] at hr
  | true =>
    cases hf : fewer .ctrl1 with
    | some c1 => simpa [a80Reads, hact, hf, h _ _ hf] using hr
    | none =>
      simp only [a80Reads, hact, hf, if_true, Option.all_none, List.mem_append] at hr ⊢
      refine hr.imp_right fun hattr => ?_
      split at hattr
      · exact hattr
      · cases hattr

theorem a80PixelReady_of_allRead (h : ∀ r ∈ a80Reads c x known, (known r).isSome = true) :
    a80PixelReady c x known p = true := by
  cases hin : a80Active c x.target && a80InSpan c p with
  | false => exact a80PixelReady_border hin
  | true =>
    obtain ⟨hact, hspan⟩ := Bool.and_eq_true_iff.1 hin
    obtain ⟨c1, hc1⟩ := Option.isSome_iff_exists.1 (h _ (ctrl1_mem_a80Reads hact))
    have hcol : (p - c.hStart) / 8 < 80 := by
      simp only [a80InSpan, Bool.and_eq_true, decide_eq_true_eq] at hspan
      omega
    simp only [a80PixelReady, hin, hc1, if_true, h _ (ch_mem_a80Reads hact hcol), Bool.true_and]
    split
    · exact h _ (attr_mem_a80Reads hact hc1 ‹_› hcol)
    · exact h _ (ctrl0_mem_a80Reads hact)

end Attr80

/-! ## The line of any renderer (42_scanline_pipeline.md R198) -/

section Line

variable {c : Cfg} {x : LineCtx} {p : Nat}

/-- An enabled pixel has the value of the bytes already read (42_scanline_pipeline.md R207). -/
theorem linePixel_of_ready (hp : linePixelReady c x known p = true) (hrd : Returned known rd) :
    linePixel c x rd p = linePixel c x (knownByte known) p := by
  cases hr : x.renderer <;> simp only [linePixelReady, linePixel, hr] at hp ⊢
  case vdg => exact vdgPixel_of_ready hp hrd
  case teletext => exact ttPixel_of_ready hp hrd
  case attr80 => exact a80Pixel_of_ready hp hrd

/-- A renderer's border colour (42_scanline_pipeline.md R206). -/
def lineBorder (c : Cfg) : Renderer → Pixel
  | .vdg => c.vdg.border
  | .teletext => c.tt.border
  | .attr80 => c.a80.border

/-- A pixel enabled before the line's first read is a border pixel, of every line of that renderer and target (log 13). -/
theorem linePixel_of_ready_unread (hp : linePixelReady c x (fun _ => none) p = true) {y : LineCtx}
    (hr : y.renderer = x.renderer) (ht : y.target = x.target) : linePixel c y rd p = lineBorder c x.renderer := by
  cases hx : x.renderer <;> rw [hx] at hr <;> simp only [linePixelReady, linePixel, hx, hr] at hp ⊢
  case vdg => exact vdgPixel_border (ht ▸ outside_of_vdgPixelReady hp)
  case teletext => exact ttPixel_border (ht ▸ outside_of_ttPixelReady hp)
  case attr80 => exact a80Pixel_border (ht ▸ outside_of_a80PixelReady hp)

/-- The more bytes are known, the fewer reads the line may make. -/
theorem lineReads_mono (h : ∀ q v, fewer q = some v → known q = some v) {r : LineRead} (hr : r ∈ lineReads c x known) :
    r ∈ lineReads c x fewer := by
  unfold lineReads at hr ⊢
  cases hx : x.renderer with
  | vdg => rw [hx] at hr; exact vdgReads_mono h hr
  | teletext => rw [hx] at hr; exact hr
  | attr80 => rw [hx] at hr; exact a80Reads_mono h hr

/-- Once the line has made its reads, every pixel is enabled. -/
theorem linePixelReady_of_allRead (h : AllRead c x known) : linePixelReady c x known p = true := by
  unfold AllRead lineReads at h
  unfold linePixelReady
  cases hx : x.renderer with
  | vdg => rw [hx] at h; exact vdgPixelReady_of_allRead h
  | teletext => rw [hx] at h; exact ttPixelReady_of_allRead h
  | attr80 => rw [hx] at h; exact a80PixelReady_of_allRead h

/-- Once the line has made its reads, the bookkeeping it commits depends on the bytes read alone. -/
theorem State.commitLine_of_allRead {s : State} (h : AllRead s.cfg x known) (hrd : Returned known rd) :
    s.commitLine x rd = s.commitLine x (knownByte known) := by
  unfold AllRead lineReads at h
  unfold State.commitLine
  cases hx : x.renderer with
  | vdg =>
    rw [hx] at h
    exact vdgCommit_congr s fun hact => hrd.eq_knownByte (h _ (mode_mem_vdgReads hact))
  | teletext =>
    rw [hx] at h
    exact ttCommit_congr s fun hact i hi => hrd.eq_knownByte (h _ (cell_mem_ttReads hact hi))
  | attr80 => rfl

end Line

end Sys2Proof.Machine

namespace Sys2Proof.Proofs

open Sys2Proof.Machine

/-- Settles O37: outside its window or its span a line is border, and so is a VDG line of a variant without a geometry. -/
theorem borderPixels : Obligations.BorderPixels := by
  refine fun c x rd p => ⟨fun hr hout => ?vdg, fun hr hout => ?teletext, fun hr hout => ?attr80, fun m hr hm hodd hnone => ?mode⟩
  case vdg =>
    simp only [linePixel, hr]
    refine vdgPixel_border (Bool.eq_false_iff.2 fun hin => ?_)
    simp only [vdgActive, vdgInSpan, Bool.and_eq_true, decide_eq_true_eq] at hin
    omega
  case teletext =>
    simp only [linePixel, hr]
    refine ttPixel_border (Bool.eq_false_iff.2 fun hin => ?_)
    simp only [ttActive, ttInSpan, Bool.and_eq_true, decide_eq_true_eq] at hin
    simp only [Config.ttRows, Config.ttSublines, Config.ttCols, Config.ttCellW] at hin
    omega
  case attr80 =>
    simp only [linePixel, hr]
    refine a80Pixel_border (Bool.eq_false_iff.2 fun hin => ?_)
    simp only [a80Active, a80InSpan, Bool.and_eq_true, decide_eq_true_eq] at hin
    omega
  case mode =>
    have hv : vdgVariant c.vdg m = .border := vdgVariant_border hodd hnone
    refine ⟨?_, by rw [hv]; rfl, by rw [hv]; rfl⟩
    simp only [linePixel, hr]
    exact vdgPixel_of_border (by rw [vdgNibble_eq, ← hm, hv])

end Sys2Proof.Proofs

/-! The request path, the pool and the render step taken whole (42_scanline_pipeline.md R190-R203), O29, O31 to O34. A RENDER_STEP
on a line token is `State.poppedLine` followed by the line's pixels and its commit (`exec_renderStep_line`). -/

namespace Sys2Proof.Machine

/-! ## Requests (42_scanline_pipeline.md R191-R194) -/

theorem exec_renderLine {s : State} (line : Word32) (hf : s.fatal = none) :
    exec (.renderLine line) s = .next ((s.rqPush (.line (BitVec.ofNat 32 (requestLine s.cfg line)))).answer .vid
      (.slot (some (requestLine s.cfg line % s.cfg.nPool)))) :=
  exec_go hf rfl

theorem exec_renderLineVsync {s : State} (hf : s.fatal = none) :
    exec .renderLineVsync s = .next ((s.rqPush .vsync).answer .vid (.slot none)) :=
  exec_go hf rfl

theorem State.rqPush_frame (s : State) (tok : Token) :
    s.rqPush tok = { s with rqSlot := (s.rqPush tok).rqSlot, rqHead := (s.rqPush tok).rqHead } := by
  unfold State.rqPush
  split <;> rfl

/-- A push below the capacity writes its token's slot and no other. -/
theorem State.rqSlotAt_rqPush_room {s : State} {tok : Token} (h : s.rqCount.toNat ≠ s.cfg.rqCap) (n : Word32) :
    (s.rqPush tok).rqSlotAt n = if slotOf n s.cfg.rqCap = slotOf s.rqHead s.cfg.rqCap then tok else s.rqSlotAt n := by
  rw [State.rqPush_room h]
  exact Sparse.get_set ..

/-! ## The pool's read port (42_scanline_pipeline.md R201) -/

section PoolRead

variable {s : State} {k : Byte} {x : BitVec 16}

theorem exec_poolRead_inside (hf : s.fatal = none) (hk : k.toNat < s.cfg.nPool) (hx : x.toNat < s.cfg.linePixels) :
    exec (.poolRead k x) s = .next (s.answer .vid (.pixel (s.poolAt k.toNat x.toNat))) :=
  exec_go hf (by simp [State.admission, State.admitPoolRead, hk, hx])

theorem exec_poolRead_outside (hf : s.fatal = none) (h : s.cfg.nPool ≤ k.toNat ∨ s.cfg.linePixels ≤ x.toNat) :
    exec (.poolRead k x) s = .next (s.refuse .outOfPool) := by
  have hadm : s.admission (.poolRead k x) = .refuse .outOfPool := by
    simp only [State.admission, State.admitPoolRead, Bool.and_eq_true, decide_eq_true_eq]
    rw [if_neg (by omega)]
  rw [exec_eq_issue, hadm, issue_refuse hf]

end PoolRead

/-! ## Sub-action (1) (42_scanline_pipeline.md R195) -/

/-- The state after sub-action (1) of a step whose target line is `t` (42_scanline_pipeline.md R195-R199). -/
def State.poppedLine (s : State) (t : Nat) : State :=
  { s with
    rqTail := s.rqTail + 1#32
    rendererFrame := s.latched t
    rendPhase := .rendering (s.lineCtx (s.latched t) t) (t % s.cfg.nPool) [] []
    writingSlot := some (t % s.cfg.nPool) }

theorem State.stepPop_line {s : State} {p : Word32} (h : s.rqSlotAt s.rqTail = .line p) :
    s.stepPop = s.poppedLine (targetLine s.cfg p) := by
  simp only [State.stepPop, State.rqTop, h, State.poppedLine, State.rqPop]

theorem State.stepPop_vsync {s : State} (h : s.rqSlotAt s.rqTail = .vsync) :
    s.stepPop = { s with rqTail := s.rqTail + 1#32, fc := s.fc + 1#32 } := by
  simp only [State.stepPop, State.rqTop, h, State.rqPop]

theorem State.stepFinish_idle {s : State} (h : s.rendPhase = .idle) : s.stepFinish = s := by
  simp only [State.stepFinish, h]

/-- What the rest of a step does after its pop: the line's pixels, then the commit. -/
theorem State.stepFinish_poppedLine (s : State) (t : Nat) :
    (s.poppedLine t).stepFinish =
      ((s.poppedLine t).writeLine (t % s.cfg.nPool)
        (linePixels s.cfg (s.lineCtx (s.latched t) t) (s.liveRead (s.lineCtx (s.latched t) t)))).stepCommit
        (s.lineCtx (s.latched t) t) (s.liveRead (s.lineCtx (s.latched t) t)) := rfl

/-! ## RENDER_STEP whole -/

section RenderStep

variable {s : State}

theorem State.admission_renderStep (hp : s.rendPhase = .idle) (hne : s.rqHead ≠ s.rqTail) :
    s.admission .renderStep = .go := by
  have he : s.rqEmpty = false := by
    simp only [State.rqEmpty, State.rqCount, beq_eq_false_iff_ne]
    bv_omega
  simp [State.admission, State.admitRender, hp, he]

theorem exec_renderStep (hf : s.fatal = none) (hp : s.rendPhase = .idle) (hne : s.rqHead ≠ s.rqTail) :
    exec .renderStep s = .next s.stepPop.stepFinish :=
  exec_go hf (State.admission_renderStep hp hne)

theorem beginOp_renderStep (hf : s.fatal = none) (hp : s.rendPhase = .idle) (hne : s.rqHead ≠ s.rqTail) :
    beginOp .renderStep s = .next s.stepPop :=
  beginOp_go hf (State.admission_renderStep hp hne)

/-- A step on VSYNC ends with its pop (42_scanline_pipeline.md R200). -/
theorem exec_renderStep_vsync (hf : s.fatal = none) (hp : s.rendPhase = .idle) (hne : s.rqHead ≠ s.rqTail)
    (htok : s.rqSlotAt s.rqTail = .vsync) :
    exec .renderStep s = .next { s with rqTail := s.rqTail + 1#32, fc := s.fc + 1#32 } := by
  rw [exec_renderStep hf hp hne, State.stepPop_vsync htok]
  exact congrArg _ (State.stepFinish_idle hp)

theorem exec_renderStep_line {p : Word32} (hf : s.fatal = none) (hp : s.rendPhase = .idle) (hne : s.rqHead ≠ s.rqTail)
    (htok : s.rqSlotAt s.rqTail = .line p) :
    exec .renderStep s = .next (s.poppedLine (targetLine s.cfg p)).stepFinish := by
  rw [exec_renderStep hf hp hne, State.stepPop_line htok]

end RenderStep

theorem vdgCommit_frame (s : State) (x : LineCtx) (rd : LineRead → Byte) :
    vdgCommit s x rd = { s with
      rowBase := (vdgCommit s x rd).rowBase, lineCount := (vdgCommit s x rd).lineCount,
      lastMode := (vdgCommit s x rd).lastMode } := by
  simp only [vdgCommit]
  split
  · split <;> rfl
  · rfl

theorem ttCommit_frame (s : State) (x : LineCtx) (rd : LineRead → Byte) :
    ttCommit s x rd = { s with
      ttLowerNext := (ttCommit s x rd).ttLowerNext, ttLowerCur := (ttCommit s x rd).ttLowerCur } := by
  simp only [ttCommit]
  split
  · split <;> rfl
  · rfl

/-- The commit leaves the bookkeeping of the VDG to the VDG (43_scanline_decode.md R236). -/
theorem State.commitLine_not_vdg (s : State) {x : LineCtx} (rd : LineRead → Byte) (h : x.renderer ≠ .vdg) :
    (s.commitLine x rd).rowBase = s.rowBase ∧ (s.commitLine x rd).lineCount = s.lineCount ∧
      (s.commitLine x rd).lastMode = s.lastMode := by
  unfold State.commitLine
  cases hr : x.renderer with
  | vdg => exact absurd hr h
  | teletext => rw [ttCommit_frame]; exact ⟨rfl, rfl, rfl⟩
  | attr80 => exact ⟨rfl, rfl, rfl⟩

/-- The commit leaves the lookahead bookkeeping to the teletext renderer (44_teletext.md R285). -/
theorem State.commitLine_not_teletext (s : State) {x : LineCtx} (rd : LineRead → Byte) (h : x.renderer ≠ .teletext) :
    (s.commitLine x rd).ttLowerNext = s.ttLowerNext ∧ (s.commitLine x rd).ttLowerCur = s.ttLowerCur := by
  unfold State.commitLine
  cases hr : x.renderer with
  | vdg => rw [vdgCommit_frame]; exact ⟨rfl, rfl⟩
  | teletext => exact absurd hr h
  | attr80 => exact ⟨rfl, rfl⟩

theorem linePixels_length (c : Cfg) (x : LineCtx) (rd : LineRead → Byte) : (linePixels c x rd).length = c.linePixels := by
  simp [linePixels]

theorem linePixels_getD {c : Cfg} {p : Nat} (x : LineCtx) (rd : LineRead → Byte) (hp : p < c.linePixels) :
    (linePixels c x rd).getD p 0#8 = linePixel c x rd p := by
  simp [linePixels, hp]

theorem State.poolAt_stepCommit (s : State) (x : LineCtx) (rd : LineRead → Byte) (l y : Nat) :
    (s.stepCommit x rd).poolAt l y = s.poolAt l y := by
  rw [State.stepCommit_frame]
  rfl

/-- The pool after a whole step: the target line in its slot, every other slot as before. -/
theorem State.poolAt_stepFinish_poppedLine (s : State) (t l : Nat) {p : Nat} (hp : p < s.cfg.linePixels) :
    (s.poppedLine t).stepFinish.poolAt l p =
      if l = t % s.cfg.nPool then
        linePixel s.cfg (s.lineCtx (s.latched t) t) (s.liveRead (s.lineCtx (s.latched t) t)) p
      else s.poolAt l p := by
  rw [State.stepFinish_poppedLine, State.poolAt_stepCommit, ← linePixels_getD _ _ hp]
  exact State.poolAt_writeLine (s.poppedLine t) _ _ (linePixels_length ..) l p hp

/-! ## The slots of the pool (42_scanline_pipeline.md R197, R203) -/

/-- The slot of a request's target line, N_POOL - 1 lines on, across the frame wrap too (42_scanline_pipeline.md R197). -/
theorem targetLine_mod_nPool {c : Cfg} (h : c.frameLines % c.nPool = 0) (p : Word32) :
    targetLine c p % c.nPool = (p.toNat + c.nPool - 1) % c.nPool :=
  Nat.mod_mod_of_dvd _ (Nat.dvd_of_mod_eq_zero h)

end Sys2Proof.Machine

namespace Sys2Proof.Proofs

open Sys2Proof.Machine

/-- Settles O29: both forms push their token and answer; the push is `State.rqPush_full` or `State.rqPush_room`. -/
theorem renderLineRequests : Obligations.RenderLineRequests := by
  intro s i tok answer hf hi
  have hexec : exec i s = .next ((s.rqPush tok).answer .vid (.slot answer)) := by
    rcases hi with ⟨line, l, rfl, rfl, rfl, rfl⟩ | ⟨rfl, rfl, rfl⟩
    · exact exec_renderLine line hf
    · exact exec_renderLineVsync hf
  refine ⟨_, hexec, ?frame, fun hfull => ?full, fun hroom => ?room⟩
  case frame => rw [State.rqPush_frame]; rfl
  case full => rw [State.rqPush_full hfull]; exact ⟨rfl, rfl⟩
  case room => exact ⟨by rw [State.rqPush_room hroom]; rfl, State.rqSlotAt_rqPush_room hroom⟩

/-- Settles O31: a step on VSYNC ends with its pop. -/
theorem vsyncStepCountsAFrame : Obligations.VsyncStepCountsAFrame :=
  fun _ hf hp hne htok => exec_renderStep_vsync hf hp hne htok

/-- Settles O32: the step is its pop, the pixels of the line and the commit; the pixels are `State.poolAt_stepFinish_poppedLine`, the
rest is what a commit can write. -/
theorem renderStepWritesTheTargetLine : Obligations.RenderStepWritesTheTargetLine := by
  rintro s p t slot rf hf hp hne htok rfl rfl rfl
  refine ⟨_, exec_renderStep_line hf hp hne htok, ?frame, fun l x hx => ?pixels, fun hr => ?notVdg, fun hr => ?notTeletext⟩
  case frame =>
    rw [State.stepFinish_poppedLine, State.stepCommit_frame, ← hp]
    rfl
  case pixels => exact State.poolAt_stepFinish_poppedLine s _ l hx
  case notVdg => exact State.commitLine_not_vdg _ _ hr
  case notTeletext => exact State.commitLine_not_teletext _ _ hr

/-- Settles O33: the two answers of the read port's admission. -/
theorem poolReadAnswersThePixel : Obligations.PoolReadAnswersThePixel :=
  fun _ _ _ hf => ⟨exec_poolRead_inside hf, exec_poolRead_outside hf⟩

/-- Settles O34: modulo N_POOL, which divides FRAME_LINES, the step writes slot lj - 1. -/
theorem poolInvariant : Obligations.PoolInvariant := by
  intro s lj li hwf htok hlj hli
  obtain ⟨-, -, -, hn, hmul, -⟩ := (Cfg.wf_iff s.cfg).1 hwf
  have hslot := targetLine_mod_nPool hmul lj
  have hcall (d : Nat) : (lj.toNat + d) % s.cfg.frameLines % s.cfg.nPool = (lj.toNat + d) % s.cfg.nPool :=
    Nat.mod_mod_of_dvd _ (Nat.dvd_of_mod_eq_zero hmul)
  refine ⟨_, congrArg State.writingSlot (State.stepPop_line htok), ?differ, fun d hd hlag => ?lag, fun hlag => ?same⟩
  case differ => rw [hslot]; rcases hn with h | h | h <;> rw [h] <;> omega
  case lag => rw [hslot, hlag, hcall]; rcases hn with h | h | h <;> rw [h] at hd ⊢ <;> omega
  case same => rw [hslot, hlag, hcall, Nat.add_sub_assoc (by omega)]

end Sys2Proof.Proofs

/-! The render step by sub-actions (42_scanline_pipeline.md R195, R207), O35 and O36. In a run with nothing between, the reads made
so far always agree with the shadow memory; each one takes a read off `unreadLine`, so they end (`State.advanceN_reads`), after which
the pixels are written in ascending order (`State.advanceN_allRead`) and the last sub-action commits. -/

namespace Sys2Proof

/-- Writing the value after a run of values makes the run one longer. -/
theorem Sparse.set_splice_append {α : Type} [DecidableEq α] {d : α} {m : List (Nat × α)} (hm : Sparse.wfFrom d 0 m = true)
    (base : Nat) (vs : List α) (v : α) :
    Sparse.set d (Sparse.splice d m base vs) (base + vs.length) v = Sparse.splice d m base (vs ++ [v]) := by
  refine Sparse.ext (lo := 0) (Sparse.wfFrom_set _ _ (Sparse.wfFrom_splice _ _ hm)) (Sparse.wfFrom_splice _ _ hm) fun b => ?_
  rw [Sparse.get_set, Sparse.get_splice, Sparse.get_splice, List.length_append, List.length_singleton]
  by_cases hb : b = base + vs.length
  · subst hb
    simp
  · rw [if_neg hb]
    by_cases hin : base ≤ b ∧ b < base + vs.length
    · rw [if_pos hin, if_pos (by omega), List.getD_append _ _ _ _ (by omega)]
    · rw [if_neg hin, if_neg (by omega)]

end Sys2Proof

namespace Sys2Proof.Machine

/-! ## Reads made so far -/

theorem readOr0_eq_knownByte (m : List (LineRead × Byte)) : readOr0 m = knownByte (knownRead m) := rfl

theorem knownRead_cons (r : LineRead) (v : Byte) (m : List (LineRead × Byte)) (q : LineRead) :
    knownRead ((r, v) :: m) q = if r = q then some v else knownRead m q := rfl

/-- Before the first read there is nothing to agree with. -/
theorem returned_nil (rd : LineRead → Byte) : Returned (knownRead []) rd := fun _ _ h => by cases h

/-- A read just made returned the byte of its cell, and the others still agree. -/
theorem returned_cons {rd : LineRead → Byte} {m : List (LineRead × Byte)} (h : Returned (knownRead m) rd) (r : LineRead) :
    Returned (knownRead ((r, rd r) :: m)) rd := by
  intro q v hq
  rw [knownRead_cons] at hq
  split at hq
  next hrq => rw [← hrq]; exact Option.some.inj hq
  next => exact h q v hq

section NextRead

variable {c : Cfg} {x : LineCtx} {reads : List (LineRead × Byte)} {r : LineRead}

theorem nextRead_mem (h : nextRead c x reads = some r) : r ∈ lineReads c x (knownRead reads) :=
  List.mem_of_find?_eq_some h

theorem nextRead_unread (h : nextRead c x reads = some r) : knownRead reads r = none :=
  Option.isNone_iff_eq_none.1 (List.find?_some (p := fun r => (knownRead reads r).isNone) h)

theorem nextRead_eq_none : nextRead c x reads = none ↔ AllRead c x (knownRead reads) := by
  simp [nextRead, AllRead, List.find?_eq_none, Option.isSome_iff_ne_none]

/-- The first read not made yet may be made: of a teletext line the columns before it have been read. -/
theorem nextRead_ready (h : nextRead c x reads = some r) : lineReadReady (knownRead reads) r = true := by
  cases r with
  | mode | css | row | ctrl0 | ctrl1 | ch | attr => rfl
  | cell col =>
    have hmem := nextRead_mem h
    unfold nextRead at h
    unfold lineReads at h hmem
    cases hr : x.renderer with
    | vdg => simp [hr, vdgReads] at hmem
    | attr80 => simp [hr, a80Reads] at hmem
    | teletext =>
      cases hact : ttActive c.tt x.target with
      | false => simp [hr, ttReads, hact] at hmem
      | true =>
        simp only [hr, ttReads, hact, if_true, List.find?_map, Option.map_eq_some_iff, LineRead.cell.injEq,
          exists_eq_right, List.find?_range_eq_some, Function.comp_apply] at h
        obtain ⟨-, -, hbefore⟩ := h
        exact ttKnownBelow_iff.2 fun i hi => by simpa [← Option.isSome_iff_ne_none] using hbefore i hi

/-- The reads a line may still make, out of all it could make at its start. -/
def unreadLine (c : Cfg) (x : LineCtx) (reads : List (LineRead × Byte)) : List LineRead :=
  (lineReads c x fun _ => none).filter fun r => (knownRead reads r).isNone

/-- Each read takes one off. -/
theorem unreadLine_cons_length_lt (h : nextRead c x reads = some r) (v : Byte) :
    (unreadLine c x ((r, v) :: reads)).length < (unreadLine c x reads).length := by
  have hcons : unreadLine c x ((r, v) :: reads) = (unreadLine c x reads).filter fun q => r ≠ q := by
    rw [unreadLine, unreadLine, List.filter_filter]
    refine List.filter_congr fun q _ => ?_
    by_cases hq : r = q <;> simp [knownRead_cons, hq]
  rw [hcons, List.length_filter_lt_length_iff_exists]
  have hmem : r ∈ lineReads c x fun _ => none := lineReads_mono (fun _ _ e => by cases e) (nextRead_mem h)
  exact ⟨r, List.mem_filter.2 ⟨hmem, by simp [nextRead_unread h]⟩, by simp⟩

end NextRead

theorem State.pool_of_canonical {s : State} (h : s.canonical = true) : Sparse.wfFrom 0#8 0 s.pool = true := by
  simp only [State.canonical, Bool.and_eq_true] at h
  exact h.1.2

/-! ## One sub-action -/

section Rendering

variable {s : State} {x : LineCtx} {slot : Nat} {reads : List (LineRead × Byte)} {written : List Nat}

theorem State.rendRead_admitted {r : LineRead} (hp : s.rendPhase = .rendering x slot reads written)
    (hr : r ∈ lineReads s.cfg x (knownRead reads)) (hnone : knownRead reads r = none)
    (hready : lineReadReady (knownRead reads) r = true) :
    s.rendRead r = { s with
      rendPhase := .rendering (s.scanCtx x reads) slot ((r, s.liveRead (s.scanCtx x reads) r) :: reads) written } := by
  simp [State.rendRead, hp, hr, hnone, hready]

theorem State.rendWrite_ready {p : Nat} (hp : s.rendPhase = .rendering x slot reads written) (hlt : p < s.cfg.linePixels)
    (hw : p ∉ written) (hready : linePixelReady s.cfg x (knownRead reads) p = true) :
    s.rendWrite p = { s.writePixel slot p (linePixel s.cfg x (readOr0 reads) p) with
      rendPhase := .rendering x slot reads (p :: written) } := by
  simp [State.rendWrite, hp, hlt, hw, hready]

theorem State.rendWrite_not_ready {p : Nat} (hp : s.rendPhase = .rendering x slot reads written)
    (hready : linePixelReady s.cfg x (knownRead reads) p = false) : s.rendWrite p = s := by
  simp [State.rendWrite, hp, hready]

/-- While reads are left, the step makes the next one. -/
theorem State.rendAdvance_read {r : LineRead} (hp : s.rendPhase = .rendering x slot reads written)
    (hr : nextRead s.cfg x reads = some r) (hx : s.scanCtx x reads = x) :
    s.rendAdvance = { s with rendPhase := .rendering x slot ((r, s.liveRead x r) :: reads) written } := by
  simp only [State.rendAdvance, hp, hr]
  rw [State.rendRead_admitted hp (nextRead_mem hr) (nextRead_unread hr) (nextRead_ready hr), hx]

/-- The first pixel not written yet, when those below `k` are. -/
theorem nextPixel_range_reverse (c : Cfg) (k : Nat) :
    nextPixel c (List.range k).reverse = if k < c.linePixels then some k else none := by
  unfold nextPixel
  split
  next hk => simp [List.find?_range_eq_some, hk]
  next hk => simp [List.find?_eq_none]; omega

/-- The commit ends the step wherever it stands. -/
theorem State.stepCommit_rendPhase (s : State) (x : LineCtx) (rd : LineRead → Byte) (ph : RendPhase) :
    ({ s with rendPhase := ph } : State).stepCommit x rd = s.stepCommit x rd := by
  unfold State.stepCommit State.commitLine
  cases x.renderer with
  | attr80 => rfl
  | vdg =>
    simp only [vdgCommit]
    split
    · split <;> rfl
    · rfl
  | teletext =>
    simp only [ttCommit]
    split
    · split <;> rfl
    · rfl

/-! ## The pixels in ascending order -/

/-- The state with the first `k` pixels of the line written, with the values of the bytes in memory. -/
def State.pixelsWritten (s : State) (x : LineCtx) (slot : Nat) (reads : List (LineRead × Byte)) (k : Nat) : State :=
  { s with
    pool := Sparse.splice 0#8 s.pool (poolIndex s.cfg slot 0) ((List.range k).map (linePixel s.cfg x (s.liveRead x)))
    rendPhase := .rendering x slot reads (List.range k).reverse }

theorem State.pixelsWritten_zero (hpool : Sparse.wfFrom 0#8 0 s.pool = true)
    (hp : s.rendPhase = .rendering x slot reads []) : s.pixelsWritten x slot reads 0 = s := by
  rw [State.pixelsWritten, List.range_zero, List.map_nil, Sparse.splice_nil hpool, List.reverse_nil, ← hp]

section PixelsWritten

variable (hall : AllRead s.cfg x (knownRead reads)) (hrd : Returned (knownRead reads) (s.liveRead x))

include hall hrd

/-- The next sub-action writes the next pixel. -/
theorem State.rendAdvance_pixelsWritten (hpool : Sparse.wfFrom 0#8 0 s.pool = true) {k : Nat} (hk : k < s.cfg.linePixels) :
    (s.pixelsWritten x slot reads k).rendAdvance = s.pixelsWritten x slot reads (k + 1) := by
  have hready : linePixelReady s.cfg x (knownRead reads) k = true := linePixelReady_of_allRead hall
  have hnext : (s.pixelsWritten x slot reads k).rendAdvance = (s.pixelsWritten x slot reads k).rendWrite k := by
    simp only [State.rendAdvance, State.pixelsWritten, nextRead_eq_none.2 hall, nextPixel_range_reverse, if_pos hk]
  have hvalue : linePixel s.cfg x (readOr0 reads) k = linePixel s.cfg x (s.liveRead x) k :=
    (linePixel_of_ready hready hrd).symm
  have hpix := Sparse.set_splice_append hpool (poolIndex s.cfg slot 0)
    ((List.range k).map (linePixel s.cfg x (s.liveRead x))) (linePixel s.cfg x (s.liveRead x) k)
  rw [hnext, State.rendWrite_ready (s := s.pixelsWritten x slot reads k) rfl hk (by simp) hready]
  simp only [State.pixelsWritten, State.writePixel, hvalue, List.range_succ, List.map_append, List.map_cons, List.map_nil,
    List.reverse_append, List.reverse_singleton, List.singleton_append, ← hpix, List.length_map, List.length_range]
  rfl

theorem State.advanceN_pixelsWritten (hpool : Sparse.wfFrom 0#8 0 s.pool = true) {k n : Nat} (hn : k + n ≤ s.cfg.linePixels) :
    (s.pixelsWritten x slot reads k).advanceN .rend n = s.pixelsWritten x slot reads (k + n) := by
  induction n generalizing k with
  | zero => rfl
  | succ n ih =>
    rw [State.advanceN, State.advance, State.rendAdvance_pixelsWritten hall hrd hpool (by omega), ih (by omega),
      Nat.succ_add_eq_add_succ]

/-- With every pixel written, the step commits. -/
theorem State.rendAdvance_allWritten :
    (s.pixelsWritten x slot reads s.cfg.linePixels).rendAdvance =
      (s.pixelsWritten x slot reads s.cfg.linePixels).stepCommit x (s.liveRead x) := by
  have hcommit := State.commitLine_of_allRead (s := s.pixelsWritten x slot reads s.cfg.linePixels) hall hrd
  rw [State.stepCommit, hcommit]
  simp only [State.rendAdvance, State.pixelsWritten, nextRead_eq_none.2 hall, nextPixel_range_reverse, lt_irrefl, if_false]
  rfl

/-- A step whose reads have all been made, from the memory as it stands, writes its line and commits. -/
theorem State.advanceN_allRead (hpool : Sparse.wfFrom 0#8 0 s.pool = true)
    (hp : s.rendPhase = .rendering x slot reads []) :
    s.advanceN .rend (s.cfg.linePixels + 1) =
      (s.writeLine slot (linePixels s.cfg x (s.liveRead x))).stepCommit x (s.liveRead x) := by
  have hpixels := State.advanceN_pixelsWritten (slot := slot) hall hrd hpool (Nat.zero_add s.cfg.linePixels).le
  rw [State.pixelsWritten_zero hpool hp, Nat.zero_add] at hpixels
  rw [State.advanceN_add, hpixels, State.advanceN, State.advanceN, State.advance, State.rendAdvance_allWritten hall hrd]
  exact State.stepCommit_rendPhase (s.writeLine slot _) x _ _

end PixelsWritten

/-! ## Runs of sub-actions -/

/-- The reads end, every one made from the memory as it stands. -/
theorem State.advanceN_reads (hp : s.rendPhase = .rendering x slot reads written) (hx : ∀ m, s.scanCtx x m = x)
    (hrd : Returned (knownRead reads) (s.liveRead x)) :
    ∃ n reads', s.advanceN .rend n = { s with rendPhase := .rendering x slot reads' written } ∧
      AllRead s.cfg x (knownRead reads') ∧ Returned (knownRead reads') (s.liveRead x) := by
  induction hm : (unreadLine s.cfg x reads).length using Nat.strong_induction_on generalizing s reads with
  | _ m ih =>
    subst hm
    cases hr : nextRead s.cfg x reads with
    | none =>
      refine ⟨0, reads, ?_, nextRead_eq_none.1 hr, hrd⟩
      rw [← hp]
      rfl
    | some r =>
      obtain ⟨n, reads', hrun, hall, hrd'⟩ :=
        ih _ (unreadLine_cons_length_lt hr (s.liveRead x r))
          (s := { s with rendPhase := .rendering x slot ((r, s.liveRead x r) :: reads) written })
          rfl hx (returned_cons hrd r) rfl
      refine ⟨n + 1, reads', ?_, hall, hrd'⟩
      rw [State.advanceN, State.advance, State.rendAdvance_read hp hr (hx reads), hrun]

end Rendering

/-- The sub-actions of a line, with nothing between, end as the uninterrupted step does. -/
theorem State.advanceN_poppedLine {s : State} (hcan : s.canonical = true) (t : Nat) :
    ∃ n, (s.poppedLine t).advanceN .rend n = (s.poppedLine t).stepFinish := by
  obtain ⟨n, reads, hrun, hall, hrd⟩ := State.advanceN_reads (s := s.poppedLine t) rfl
    (State.scanCtx_lineCtx s (s.latched t) t) (returned_nil _)
  have hend := State.advanceN_allRead
    (s := { s.poppedLine t with rendPhase := .rendering (s.lineCtx (s.latched t) t) (t % s.cfg.nPool) reads [] })
    hall hrd (State.pool_of_canonical hcan) rfl
  refine ⟨n + (s.cfg.linePixels + 1), ?_⟩
  rw [State.advanceN_add, hrun, State.stepFinish_poppedLine]
  exact hend.trans (State.stepCommit_rendPhase ((s.poppedLine t).writeLine _ _) _ _ _)

end Sys2Proof.Machine

namespace Sys2Proof.Proofs

open Sys2Proof.Machine

/-- Settles O35: after the pop the reads end and the pixels are written (`State.advanceN_poppedLine`). -/
theorem renderStepRunRefinesExec : Obligations.RenderStepRunRefinesExec := by
  intro s t0 hcan hf hp hne hbegin
  rw [beginOp_renderStep hf hp hne] at hbegin
  cases hbegin
  rw [exec_renderStep hf hp hne]
  cases htok : s.rqSlotAt s.rqTail with
  | vsync =>
    have hidle : s.stepPop.rendPhase = .idle := by rw [State.stepPop_vsync htok]; exact hp
    exact ⟨0, hidle, by rw [State.stepFinish_idle hidle]; rfl⟩
  | line p =>
    rw [State.stepPop_line htok]
    obtain ⟨n, hrun⟩ := State.advanceN_poppedLine hcan (targetLine s.cfg p)
    exact ⟨n, by rw [hrun]; rfl, by rw [hrun]⟩

/-- Settles O36: what a read and a pixel write do, then what the reads and the pixels of a line depend on. -/
theorem pixelWrittenAfterItsReads : Obligations.PixelWrittenAfterItsReads := by
  refine ⟨fun s x slot reads written p hp hlt hw => ?write, fun s slot p v l y hp hy => ?pool,
    fun c x known p rd rd' hready hknown => ?value, fun s x slot reads written r a v hp hr hnone hready => ?read,
    fun c x rv st cu rd p hready => ?unread, fun c x known fewer r hmono hr => lineReads_mono hmono hr⟩
  case write => exact ⟨State.rendWrite_ready hp hlt hw, State.rendWrite_not_ready hp⟩
  case pool =>
    rw [State.poolAt_writePixel]
    exact if_congr ⟨poolIndex_inj s.cfg hy hp, fun ⟨hl, hx⟩ => by rw [hl, hx]⟩ rfl rfl
  case value =>
    rw [linePixel_of_ready hready fun r v h => (hknown r v h).1, linePixel_of_ready hready fun r v h => (hknown r v h).2]
  case read =>
    refine ⟨s.scanCtx x reads, ?_, ?_⟩
    · cases reads <;> rfl
    · rw [State.rendRead_admitted (s := s.writeByte a v) hp hr hnone hready, State.liveRead, State.readByte_writeByte]
      rfl
  case unread =>
    exact (linePixel_of_ready_unread (y := x) hready rfl rfl).trans
      (linePixel_of_ready_unread (y := { x with reveal := rv, ttStart := st, ttCursor := cu }) hready rfl rfl).symm

end Sys2Proof.Proofs

/-! What a line shows, dot by dot, and the bookkeeping a VDG line leaves (43_scanline_decode.md), O38 to O43. For each renderer one
lemma gives the pixel inside the span in terms of its column and dot (`vdgPixel_text`, `vdgPixel_gfx`, `a80Pixel_dot`); the
obligations read the rule's fields off these. -/

namespace Sys2Proof.Machine

/-! ## The addresses of the reads (20_memory.md R62) -/

theorem vdgRowAddr_toNat (c : VdgCfg) (x : LineCtx) (k : Nat) :
    (vdgRowAddr c x k).toNat =
      (c.vramBase.toNat + (if x.target = c.vStart then 0 else x.rowBase.toNat) + k) % 2 ^ 16 := by
  have hbase : (vdgRowBase c x).toNat = if x.target = c.vStart then 0 else x.rowBase.toNat := apply_ite BitVec.toNat ..
  rw [vdgRowAddr, BitVec.toNat_add, BitVec.toNat_add, BitVec.toNat_ofNat, hbase, ← Nat.add_mod]

theorem a80CharAddr_toNat (c : A80Cfg) (t col : Nat) :
    (a80CharAddr c t col).toNat = (c.base.toNat + 80 * ((t - c.vStart) / c.gh) + col) % 2 ^ 16 := by
  rw [a80CharAddr, BitVec.toNat_add, BitVec.toNat_ofNat, Nat.add_mod_mod, ← Nat.add_assoc, a80Row]

theorem a80AttrAddr_toNat (c : A80Cfg) (t col : Nat) :
    (a80AttrAddr c t col).toNat = (c.attrBase.toNat + 80 * ((t - c.vStart) / c.gh) + col) % 2 ^ 16 := by
  rw [a80AttrAddr, BitVec.toNat_add, BitVec.toNat_ofNat, Nat.add_mod_mod, ← Nat.add_assoc, a80Row]

theorem ttCellAddr_toNat (c : TtCfg) (x : LineCtx) (col : Nat) :
    (ttCellAddr c x col).toNat =
      (c.base.toNat + (x.ttStart.toNat + 40 * ((x.target - c.vStart) / 20) + col) % 2 ^ 16) % 2 ^ 16 := by
  have hoff : (ttOffset c x col).toNat = (x.ttStart.toNat + 40 * ((x.target - c.vStart) / 20) + col) % 2 ^ 16 := by
    rw [ttOffset, BitVec.toNat_add, BitVec.toNat_ofNat, Nat.add_mod_mod, ← Nat.add_assoc]
    rfl
  rw [ttCellAddr, BitVec.toNat_add, hoff]

/-! ## Runs of equal width -/

/-- Pixel `k` of the `n`-th run of `w` pixels from `h` on belongs to run `n`. -/
theorem run_index (h n : Nat) {w k : Nat} (hk : k < w) : (h + n * w + k - h) / w = n := by
  rw [Nat.add_assoc, Nat.add_sub_cancel_left, Nat.mul_comm, Nat.mul_add_div (by omega), Nat.div_eq_of_lt hk, Nat.add_zero]

/-- The first `m` runs of `w` pixels fill `m * w` pixels. -/
theorem run_lt {m n w k : Nat} (hn : n < m) (hk : k < w) : n * w + k < m * w :=
  calc n * w + k < n * w + w := by omega
    _ = (n + 1) * w := (Nat.succ_mul n w).symm
    _ ≤ m * w := Nat.mul_le_mul_right w hn

/-! ## The VDG line (43_scanline_decode.md R231-R249) -/

section Vdg

variable {c : VdgCfg} {x : LineCtx} {rd : LineRead → Byte}

theorem vdgActive_iff {t : Nat} : vdgActive c t = true ↔ c.vStart ≤ t ∧ t < c.vStart + c.vLines := by
  simp [vdgActive]

theorem vdgCss_eq (b : Byte) : vdgCss c b = b.toNat / 2 ^ c.cssBit % 2 := by
  rw [vdgCss, BitVec.toNat_ushiftRight, Nat.shiftRight_eq_div_pow]

theorem vdgVariant_text {m : BitVec 4} (heven : m.toNat % 2 = 0) : vdgVariant c m = .text := by
  have hbit : m.getLsbD 0 = false := (Nat.testBit_zero _).trans (decide_eq_false (by omega))
  exact if_pos hbit

theorem vdgVariant_gfx {m : BitVec 4} {g : Geometry} (hodd : m.toNat % 2 = 1) (hm : modeEntry c.modeTable m.toNat = some g) :
    vdgVariant c m = .gfx g := by
  have hbit : m.getLsbD 0 = true := (Nat.testBit_zero _).trans (decide_eq_true hodd)
  rw [vdgVariant, hbit, hm]
  rfl

theorem vdgLineCount_eq (m : BitVec 4) :
    vdgLineCount c x m = if x.target = c.vStart ∨ x.lastMode ≠ some m then 0 else x.lineCount.toNat := by
  unfold vdgLineCount
  by_cases ht : x.target = c.vStart <;> by_cases hm : x.lastMode = some m <;> simp [ht, hm]

/-- The pixels of the span are those of 256 dots of `xscale` pixels each (43_scanline_decode.md R230). -/
theorem vdgInSpan_add {n : Nat} (h : n < 256 * c.xscale) : vdgInSpan c (c.hStart + n) = true := by
  simp [vdgInSpan, h]

/-! ### Text and semigraphics -/

/-- Logical pixel `q` of a text line is dot `q mod 8` of column `q div 8` (43_scanline_decode.md R249). -/
theorem vdgPixel_text (hact : vdgActive c x.target = true) (hv : vdgVariant c (vdgNibble c (rd .mode)) = .text) {q k : Nat}
    (hq : q < 256) (hk : k < c.xscale) :
    vdgPixel c x rd (c.hStart + q * c.xscale + k) =
      textDot c (vdgCss c (rd .css)) (charCell c (rd (.row (q / 8)))) (vdgLineCount c x (vdgNibble c (rd .mode))) (q % 8) := by
  have hspan : vdgInSpan c (c.hStart + q * c.xscale + k) = true := by
    rw [Nat.add_assoc]
    exact vdgInSpan_add (run_lt hq hk)
  simp only [vdgPixel, hact, hspan, Bool.and_self, if_true, hv, textColumnOf, run_index _ _ hk]

theorem textDot_alpha (css : Nat) (bank : Bool) (idx : Byte) (inv : Bool) (s i : Nat) :
    textDot c css (.alpha bank idx inv) s i =
      if ((vdgGlyph c bank idx s).getLsbD (7 - i) ^^ inv) = true then Sparse.get 0#8 c.textFg css
      else Sparse.get 0#8 c.textBg css := by
  simp only [textDot, Bool.bne_eq_xor]

theorem textDot_semi4 (css : Nat) (bits : BitVec 4) (colour : Pixel) (s i : Nat) :
    textDot c css (.semi4 bits colour) s i =
      if bits.getLsbD ((if i < 4 then 3 else 2) - 2 * (s / 6)) = true then colour else c.semiBg := rfl

theorem textDot_semi6 (css : Nat) (bits : BitVec 6) (colour : Pixel) (s i : Nat) :
    textDot c css (.semi6 bits colour) s i =
      if bits.getLsbD ((if i < 4 then 5 else 4) - 2 * (s / 4)) = true then colour else c.semiBg := rfl

/-! ### Packed graphics -/

/-- The logical pixels of a geometry fill the span (43_scanline_decode.md R241). -/
theorem pixels_mul_gfxReplication (c : VdgCfg) (g : Geometry) : g.hRes.pixels * gfxReplication c g = 256 * c.xscale := by
  cases hres : g.hRes <;> simp only [gfxReplication, hres, HRes.pixels] <;> omega

/-- Logical pixel `j` shows its field of byte `j bpp div 8` (43_scanline_decode.md R238, R241). -/
theorem vdgPixel_gfx {g : Geometry} (hact : vdgActive c x.target = true)
    (hv : vdgVariant c (vdgNibble c (rd .mode)) = .gfx g) {j k : Nat} (hj : j < g.hRes.pixels)
    (hk : k < gfxReplication c g) :
    vdgPixel c x rd (c.hStart + j * gfxReplication c g + k) =
      gfxColour c g (vdgCss c (rd .css)) (gfxField g (rd (.row (j * g.bpp.bits / 8))) j) := by
  have hspan : vdgInSpan c (c.hStart + j * gfxReplication c g + k) = true := by
    rw [Nat.add_assoc]
    exact vdgInSpan_add (pixels_mul_gfxReplication c g ▸ run_lt hj hk)
  simp only [vdgPixel, hact, hspan, Bool.and_self, if_true, hv, gfxByteOf, run_index _ _ hk]

/-- The field as bits of the byte's value, the leftmost pixel in the most significant bits (43_scanline_decode.md R239). -/
theorem gfxField_eq (g : Geometry) (b : Byte) (j : Nat) :
    gfxField g b j = b.toNat / 2 ^ (8 - g.bpp.bits - j * g.bpp.bits % 8) % 2 ^ g.bpp.bits := by
  rw [gfxField, Nat.shiftRight_eq_div_pow]

theorem gfxColour_one {g : Geometry} (h : g.bpp = .one) (css f : Nat) :
    gfxColour c g css f = Sparse.get 0#8 c.pal2 (css * 2 + f) := by
  rw [gfxColour, h]

theorem gfxColour_two {g : Geometry} (h : g.bpp = .two) (css f : Nat) :
    gfxColour c g css f = Sparse.get 0#8 c.pal4 (css * 4 + f) := by
  rw [gfxColour, h]

end Vdg

/-! ### Row advance (43_scanline_decode.md R234-R237) -/

/-- DIV and STRIDE of the variant of a mode (43_scanline_decode.md R237). -/
theorem vdgVariant_div_stride {c : VdgCfg} {m : BitVec 4} {div stride : Nat}
    (h : (m.toNat % 2 = 0 ∧ div = 12 ∧ stride = 32) ∨
      (m.toNat % 2 = 1 ∧ ∃ g, modeEntry c.modeTable m.toNat = some g ∧ div = g.div.toNat ∧
        stride = g.hRes.pixels * g.bpp.bits / 8) ∨
      (m.toNat % 2 = 1 ∧ modeEntry c.modeTable m.toNat = none ∧ div = 1 ∧ stride = 0)) :
    (vdgVariant c m).div = div ∧ (vdgVariant c m).stride = stride := by
  rcases h with ⟨heven, rfl, rfl⟩ | ⟨hodd, g, hm, rfl, rfl⟩ | ⟨hodd, hm, rfl, rfl⟩
  · rw [vdgVariant_text heven]; exact ⟨rfl, rfl⟩
  · rw [vdgVariant_gfx hodd hm]; exact ⟨rfl, rfl⟩
  · rw [vdgVariant_border hodd hm]; exact ⟨rfl, rfl⟩

section Commit

variable {s : State} {x : LineCtx} {rd : LineRead → Byte}

theorem vdgCommit_inactive (h : vdgActive s.cfg.vdg x.target = false) : vdgCommit s x rd = s := by
  simp [vdgCommit, h]

variable {m : BitVec 4} (hact : vdgActive s.cfg.vdg x.target = true) (hm : vdgNibble s.cfg.vdg (rd .mode) = m)

include hact hm

/-- The last of a row's DIV lines goes on to the next row. -/
theorem vdgCommit_next_row (h : (vdgVariant s.cfg.vdg m).div ≤ vdgLineCount s.cfg.vdg x m + 1) :
    vdgCommit s x rd = { s with
      rowBase := vdgRowBase s.cfg.vdg x + BitVec.ofNat 16 (vdgVariant s.cfg.vdg m).stride, lineCount := 0#8,
      lastMode := some m } := by
  simp only [vdgCommit, hact, hm, if_true, if_pos h]

/-- Any other line of the row counts. -/
theorem vdgCommit_same_row (h : vdgLineCount s.cfg.vdg x m + 1 < (vdgVariant s.cfg.vdg m).div) :
    vdgCommit s x rd = { s with
      rowBase := vdgRowBase s.cfg.vdg x, lineCount := BitVec.ofNat 8 (vdgLineCount s.cfg.vdg x m + 1), lastMode := some m } := by
  simp only [vdgCommit, hact, hm, if_true, if_neg (Nat.not_le.2 h)]

/-- An active line leaves its mode (43_scanline_decode.md R235). -/
theorem vdgCommit_lastMode : (vdgCommit s x rd).lastMode = some m := by
  rcases Nat.lt_or_ge (vdgLineCount s.cfg.vdg x m + 1) (vdgVariant s.cfg.vdg m).div with h | h
  · rw [vdgCommit_same_row hact hm h]
  · rw [vdgCommit_next_row hact hm h]

end Commit

/-- The commit's bookkeeping depends on no state but the configuration and the bookkeeping before. -/
theorem vdgCommit_bookkeeping_congr {s u : State} (x : LineCtx) (rd : LineRead → Byte) (hcfg : u.cfg = s.cfg)
    (h : u.rowBase = s.rowBase ∧ u.lineCount = s.lineCount ∧ u.lastMode = s.lastMode) :
    (vdgCommit u x rd).rowBase = (vdgCommit s x rd).rowBase ∧ (vdgCommit u x rd).lineCount = (vdgCommit s x rd).lineCount ∧
      (vdgCommit u x rd).lastMode = (vdgCommit s x rd).lastMode := by
  simp only [vdgCommit, hcfg]
  split
  · split <;> exact ⟨rfl, rfl, rfl⟩
  · exact h

/-- The bookkeeping a VDG step leaves is that of its commit, made from the state at the pop. -/
theorem exec_renderStep_vdgLine {s : State} {p : Word32} (hf : s.fatal = none) (hp : s.rendPhase = .idle)
    (hne : s.rqHead ≠ s.rqTail) (htok : s.rqSlotAt s.rqTail = .line p) {x : LineCtx}
    (hr : s.latched (targetLine s.cfg p) = .vdg) (hx : x = s.lineCtx .vdg (targetLine s.cfg p)) :
    ∃ u, exec .renderStep s = .next u ∧ u.rowBase = (vdgCommit s x (s.liveRead x)).rowBase ∧
      u.lineCount = (vdgCommit s x (s.liveRead x)).lineCount ∧ u.lastMode = (vdgCommit s x (s.liveRead x)).lastMode := by
  refine ⟨_, exec_renderStep_line hf hp hne htok, ?_⟩
  rw [State.stepFinish_poppedLine, hr, ← hx]
  subst hx
  exact vdgCommit_bookkeeping_congr _ _ rfl ⟨rfl, rfl, rfl⟩

/-! ## The attributed 80-column line (43_scanline_decode.md R255-R260) -/

section Attr80

variable {c : A80Cfg} {x : LineCtx} {rd : LineRead → Byte}

theorem a80Active_iff {t : Nat} : a80Active c t = true ↔ c.vStart ≤ t ∧ t < c.vStart + c.rows * c.gh := by
  simp [a80Active]

theorem a80Style_enabled {col : Nat} (h : (rd .ctrl1).getLsbD 0 = true) :
    a80Style rd col = ⟨(rd (.attr col)).extractLsb' 0 3, (rd (.attr col)).extractLsb' 3 3, (rd (.attr col)).getLsbD 6⟩ :=
  if_pos h

theorem a80Style_disabled {col : Nat} (h : (rd .ctrl1).getLsbD 0 = false) :
    a80Style rd col = ⟨(rd .ctrl0).extractLsb' 0 3, (rd .ctrl0).extractLsb' 4 3, false⟩ :=
  if_neg (Bool.eq_false_iff.1 h)

theorem a80Dots_eq (ch : Byte) (ul : Bool) (s : Nat) :
    a80Dots c ch ul s = if ul = true ∧ s = c.ulRow then 0xFF#8 else Sparse.get 0#8 c.glyph (s * 256 + ch.toNat) := by
  simp only [a80Dots, Bool.and_eq_true, beq_iff_eq]

/-- Dot `dot` of column `col` (43_scanline_decode.md R258). -/
theorem a80Pixel_dot (hact : a80Active c x.target = true) {col dot : Nat} (hcol : col < 80) (hdot : dot < 8) :
    a80Pixel c x rd (c.hStart + 8 * col + dot) =
      a80Colour c (a80Set (rd .ctrl1))
        (if (a80Dots c (rd (.ch col)) (a80Style rd col).ul (a80GlyphRow c x.target)).getLsbD (7 - dot) = true
          then (a80Style rd col).fg else (a80Style rd col).bg) := by
  have hspan : a80InSpan c (c.hStart + 8 * col + dot) = true := by
    simp only [a80InSpan, Bool.and_eq_true, decide_eq_true_eq]
    omega
  have hc : (c.hStart + 8 * col + dot - c.hStart) / 8 = col := by omega
  have hd : (c.hStart + 8 * col + dot - c.hStart) % 8 = dot := by omega
  simp only [a80Pixel, hact, hspan, Bool.and_self, if_true, hc, hd]

/-- The table's pair for the key with these fields (43_scanline_decode.md R260). -/
theorem a80Lut_key (bg : BitVec 3) (set : BitVec 1) (fg : BitVec 3) (pp : BitVec 2) :
    a80Lut c (bg ++ set ++ fg ++ pp) =
      (a80Colour c (set.getLsbD 0).toNat (if pp.getLsbD 1 then fg else bg),
        a80Colour c (set.getLsbD 0).toNat (if pp.getLsbD 0 then fg else bg)) := by
  have hbg : (bg ++ set ++ fg ++ pp).extractLsb' 6 3 = bg := by
    rw [BitVec.extractLsb'_append_eq_of_le (by decide), BitVec.extractLsb'_append_eq_of_le (by decide)]
    exact BitVec.extractLsb'_append_eq_left
  have hset : (bg ++ set ++ fg ++ pp).getLsbD 5 = set.getLsbD 0 := by
    rw [BitVec.getLsbD_append, BitVec.getLsbD_append, BitVec.getLsbD_append]
    rfl
  have hfg : (bg ++ set ++ fg ++ pp).extractLsb' 2 3 = fg := by
    rw [BitVec.extractLsb'_append_eq_of_le (by decide)]
    exact BitVec.extractLsb'_append_eq_right
  have hpp {i : Nat} (hi : i < 2) : (bg ++ set ++ fg ++ pp).getLsbD i = pp.getLsbD i := by
    rw [BitVec.getLsbD_append, if_pos hi]
  simp only [a80Lut, hbg, hset, hfg, hpp (i := 1) (by decide), hpp (i := 0) (by decide)]

end Attr80

/-! ## The line of either renderer (42_scanline_pipeline.md R198) -/

theorem linePixel_vdg {c : Cfg} {x : LineCtx} (rd : LineRead → Byte) (p : Nat) (h : x.renderer = .vdg) :
    linePixel c x rd p = vdgPixel c.vdg x rd p := by
  rw [linePixel, h]

theorem linePixel_attr80 {c : Cfg} {x : LineCtx} (rd : LineRead → Byte) (p : Nat) (h : x.renderer = .attr80) :
    linePixel c x rd p = a80Pixel c.a80 x rd p := by
  rw [linePixel, h]

end Sys2Proof.Machine

namespace Sys2Proof.Proofs

open Sys2Proof.Machine

/-- Settles O38: the step ends with `vdgCommit`, in the context it took at its pop; on an active line that is the next row or one
more line of the same. -/
theorem vdgRowAdvance : Obligations.VdgRowAdvance := by
  rintro s p t m rb lc div stride hf hp hne htok rfl hr hm hrb hlc hgeo
  obtain ⟨rfl, rfl⟩ := vdgVariant_div_stride hgeo
  obtain ⟨x, hx⟩ : ∃ x, x = s.lineCtx .vdg (targetLine s.cfg p) := ⟨_, rfl⟩
  obtain ⟨u, hexec, hrow, hcount, hmode⟩ := exec_renderStep_vdgLine hf hp hne htok hr hx
  have hnib : vdgNibble s.cfg.vdg (s.liveRead x .mode) = m := (vdgNibble_eq _).trans hm.symm
  have hbase : vdgRowBase s.cfg.vdg x = rb := by rw [hx, hrb]; rfl
  have hused : vdgLineCount s.cfg.vdg x m = lc := by rw [vdgLineCount_eq, hx, hlc]; rfl
  have htarget : x.target = (p.toNat + s.cfg.nPool - 1) % s.cfg.frameLines := by rw [hx]; rfl
  subst hbase hused
  rw [← htarget]
  refine ⟨u, hexec, fun hlo hhi => ?active, fun hout => ?inactive⟩ <;> rw [hrow, hcount, hmode]
  case active =>
    have hact : vdgActive s.cfg.vdg x.target = true := vdgActive_iff.2 ⟨hlo, hhi⟩
    refine ⟨vdgCommit_lastMode hact hnib, fun hlast => ?next, fun hmore => ?same⟩
    case next => rw [vdgCommit_next_row hact hnib hlast]; exact ⟨rfl, rfl⟩
    case same => rw [vdgCommit_same_row hact hnib hmore]; exact ⟨rfl, rfl⟩
  case inactive =>
    have hact : vdgActive s.cfg.vdg x.target = false := Bool.eq_false_iff.2 fun h => by rw [vdgActive_iff] at h; omega
    rw [vdgCommit_inactive hact]
    exact ⟨rfl, rfl, rfl⟩

/-- Settles O39: the dot's logical pixel (`vdgPixel_text`) in each of the three kinds of cell. -/
theorem vdgTextPixels : Obligations.VdgTextPixels := by
  rintro c x rd m col dot k sub css hr hlo hhi hm heven rfl rfl - hcol hdot hk
  have hnib : vdgNibble c.vdg (rd .mode) = m := by rw [vdgNibble_eq, hm]
  have hpixel : linePixel c x rd (c.vdg.hStart + (8 * col + dot) * c.vdg.xscale + k) =
      textDot c.vdg (vdgCss c.vdg (rd .css)) (charCell c.vdg (rd (.row col))) (vdgLineCount c.vdg x m) dot := by
    have hc : (8 * col + dot) / 8 = col := by omega
    have hd : (8 * col + dot) % 8 = dot := by omega
    rw [linePixel_vdg rd _ hr, vdgPixel_text (vdgActive_iff.2 ⟨hlo, hhi⟩) (hnib ▸ vdgVariant_text heven) (by omega) hk, hc, hd, hnib]
  refine ⟨fun bank idx inv hcell => ?alpha, fun bits colour hcell => ?semi4, fun bits colour hcell => ?semi6⟩
  case alpha => rw [hpixel, hcell, textDot_alpha, vdgCss_eq]
  case semi4 => rw [hpixel, hcell, textDot_semi4]
  case semi6 => rw [hpixel, hcell, textDot_semi6]

/-- Settles O40: the logical pixel's field (`vdgPixel_gfx`) at either depth. -/
theorem vdgGraphicsPixels : Obligations.VdgGraphicsPixels := by
  rintro c x rd m g j k rp css f hr hlo hhi hm hodd hentry rfl hj rfl hk rfl
  have hvar : vdgVariant c.vdg (vdgNibble c.vdg (rd .mode)) = .gfx g := by
    rw [vdgNibble_eq, ← hm, vdgVariant_gfx hodd hentry]
  have hpixel := vdgPixel_gfx (vdgActive_iff.2 ⟨hlo, hhi⟩) hvar hj hk
  rw [← linePixel_vdg rd _ hr, vdgCss_eq, gfxField_eq] at hpixel
  exact ⟨fun h1 => hpixel.trans (gfxColour_one h1 _ _), fun h2 => hpixel.trans (gfxColour_two h2 _ _)⟩

/-- Settles O41: each address as its sum. -/
theorem lineReadAddresses : Obligations.LineReadAddresses := fun c x k =>
  ⟨rfl, rfl, vdgRowAddr_toNat c.vdg x k, rfl, rfl, a80CharAddr_toNat c.a80 x.target k, a80AttrAddr_toNat c.a80 x.target k,
    ttCellAddr_toNat c.tt x k⟩

/-- Settles O42: the dot (`a80Pixel_dot`) with the style of the plane or of the defaults. -/
theorem a80Pixels : Obligations.A80Pixels := by
  rintro c x rd col dot sub fg bg ul gr hr hlo hhi hcol hdot rfl hon hoff rfl
  have hstyle : a80Style rd col = ⟨fg, bg, ul⟩ := by
    cases hen : (rd .ctrl1).getLsbD 0 with
    | true =>
      obtain ⟨rfl, rfl, rfl⟩ := hon hen
      exact a80Style_enabled hen
    | false =>
      obtain ⟨rfl, rfl, rfl⟩ := hoff hen
      exact a80Style_disabled hen
  rw [linePixel_attr80 rd _ hr, a80Pixel_dot (a80Active_iff.2 ⟨hlo, hhi⟩) hcol hdot, hstyle, a80Dots_eq]
  rfl

/-- Settles O43: the table's pair for the key (`a80Lut_key`) is the two dots (`a80Pixel_dot`). -/
theorem a80LookupAgrees : Obligations.A80LookupAgrees := by
  rintro c x rd col i gr pp hr hlo hhi hcol hi rfl rfl
  have hdot {d : Nat} (hd : d < 8) := a80Pixel_dot (rd := rd) (a80Active_iff.2 ⟨hlo, hhi⟩) hcol hd
  rw [linePixel_attr80 rd _ hr, linePixel_attr80 rd _ hr, Nat.add_assoc _ (2 * i) 1, hdot (by omega), hdot (by omega), a80Lut_key]
  have hfirst : 7 - 2 * i = 6 - 2 * i + 1 := by omega
  have hsecond : 7 - (2 * i + 1) = 6 - 2 * i + 0 := by omega
  simp only [BitVec.getLsbD_extractLsb', hfirst, hsecond, a80Set]
  rfl

end Sys2Proof.Proofs

/-! The teletext renderer (44_teletext.md), O26, O44 to O50. The scan state and a cell's bitmap are said once per kind of code; the
pixel of a dot is `linePixel_ttCell`; the lookahead is whether some code of the row is 0x0D (`scanBefore_rowDh_iff`); and a port
write with its dispatch applies the port's effect to the byte written (`PortsReady.exec_write_dispatch`). -/

namespace Sys2Proof.Machine

/-! ## Control codes (44_teletext.md R287-R289) -/

/-- The codes of R287's table. -/
def setAtCodes : List Byte := [0x09#8, 0x0C#8, 0x0D#8, 0x19#8, 0x1A#8, 0x1C#8, 0x1D#8, 0x1E#8]

/-- The codes of R288's table. -/
def setAfterCodes : List Byte :=
  [0x01#8, 0x02#8, 0x03#8, 0x04#8, 0x05#8, 0x06#8, 0x07#8, 0x08#8, 0x11#8, 0x12#8, 0x13#8, 0x14#8, 0x15#8, 0x16#8,
    0x17#8, 0x18#8, 0x1F#8]

/-- The control codes of R289, without an effect. -/
def inertCodes : List Byte := [0x00#8, 0x0A#8, 0x0B#8, 0x0E#8, 0x0F#8, 0x10#8, 0x1B#8]

theorem inertCodes_disjoint :
    ∀ code ∈ inertCodes, code ∉ setAtCodes ∧ code ∉ setAfterCodes ∧ code.toNat < 0x20 := by decide

section Scan

variable {st : Scan} {code : Byte}

/-- A code outside the table takes the last arm. -/
theorem Scan.setAt_of_not_mem (h : code ∉ setAtCodes) : st.setAt code = st := by
  simp only [setAtCodes, List.mem_cons, List.not_mem_nil, or_false, not_or, ← BitVec.toNat_inj] at h
  unfold Scan.setAt
  split <;> simp_all

theorem Scan.setAfter_of_not_mem (h : code ∉ setAfterCodes) : st.setAfter code = st := by
  simp only [setAfterCodes, List.mem_cons, List.not_mem_nil, or_false, not_or, ← BitVec.toNat_inj] at h
  unfold Scan.setAfter
  split <;> simp_all

theorem isControl_iff : isControl code = true ↔ code.toNat < 0x20 := decide_eq_true_iff

/-- The mosaic cells (44_teletext.md R292). -/
theorem Scan.isMosaic_iff : st.isMosaic code = true ↔ 0x20 ≤ code.toNat ∧ st.gfx = true ∧ code.getLsbD 5 = true := by
  simp [Scan.isMosaic, isControl, and_assoc]

theorem Scan.isMosaic_eq_false (h : code.toNat < 0x20 ∨ st.gfx = false ∨ code.getLsbD 5 = false) :
    st.isMosaic code = false := by
  rw [Bool.eq_false_iff, ne_eq, Scan.isMosaic_iff]
  rintro ⟨hprint, hgfx, hbit⟩
  rcases h with h | h | h
  · omega
  · exact Bool.false_ne_true (h.symm.trans hgfx)
  · exact Bool.false_ne_true (h.symm.trans hbit)

theorem Scan.holdMosaic_of_mosaic (h : st.isMosaic code = true) :
    st.holdMosaic code = { st with held := some (code, st.sep) } :=
  if_pos h

theorem Scan.holdMosaic_of_not_mosaic (h : st.isMosaic code = false) : st.holdMosaic code = st :=
  if_neg (Bool.eq_false_iff.1 h)

theorem Scan.next_of_inert (h : code ∈ inertCodes) : st.next code = st := by
  obtain ⟨hat, hafter, hcontrol⟩ := inertCodes_disjoint code h
  rw [Scan.next, Scan.setAt_of_not_mem hat, Scan.holdMosaic_of_not_mosaic (Scan.isMosaic_eq_false (.inl hcontrol)),
    Scan.setAfter_of_not_mem hafter]

theorem scanBefore_succ {rd : LineRead → Byte} {col : Nat} (hcode : ttCode (rd (.cell col)) = code) :
    scanBefore rd (col + 1) = (scanBefore rd col).next code := by
  rw [scanBefore, hcode]

/-- The scan state after a row's graphics-red code. -/
def Scan.redGraphics : Scan := { Scan.start with fg := 1#3, gfx := true }

/-! ## The row's double-height code (44_teletext.md R290) -/

theorem Scan.setAfter_rowDh : (st.setAfter code).rowDh = st.rowDh := by
  unfold Scan.setAfter
  split <;> rfl

theorem Scan.holdMosaic_rowDh : (st.holdMosaic code).rowDh = st.rowDh := by
  unfold Scan.holdMosaic
  split <;> rfl

theorem Scan.setAt_rowDh_of_ne (h : code ≠ 0x0D#8) : (st.setAt code).rowDh = st.rowDh := by
  unfold Scan.setAt
  split
  case h_3 hcode => exact absurd (BitVec.eq_of_toNat_eq hcode) h
  all_goals rfl

theorem Scan.next_rowDh_iff : (st.next code).rowDh = true ↔ st.rowDh = true ∨ code = 0x0D#8 := by
  rw [Scan.next, Scan.setAfter_rowDh, Scan.holdMosaic_rowDh]
  by_cases h : code = 0x0D#8
  · subst h
    exact iff_of_true rfl (.inr rfl)
  · rw [Scan.setAt_rowDh_of_ne h, or_iff_left h]

/-- The scan has seen a double-height code iff one stands in the columns before. -/
theorem scanBefore_rowDh_iff {rd : LineRead → Byte} {n : Nat} :
    (scanBefore rd n).rowDh = true ↔ ∃ col, col < n ∧ ttCode (rd (.cell col)) = 0x0D#8 := by
  induction n with
  | zero => simp [scanBefore, Scan.start]
  | succ n ih => rw [scanBefore, Scan.next_rowDh_iff, ih, Nat.exists_lt_succ_right]

/-! ## Cell content (44_teletext.md R291-R296) -/

variable {c : TtCfg} {k : Nat} {lower : Bool}

theorem Scan.erow_lt (hk : k < 20) : st.erow k lower < 20 := by
  unfold Scan.erow
  split
  · split <;> omega
  · exact hk

theorem Scan.bitmap_mosaic (h : st.isMosaic code = true) :
    st.bitmap c code k lower = ttMosaic c code (st.erow k lower) st.sep (st.dh && lower) := by
  have hprint : ¬ isControl code = true := by
    rw [isControl_iff, Nat.not_lt]
    exact (Scan.isMosaic_iff.1 h).1
  rw [Scan.bitmap, if_neg hprint, if_pos h]

theorem Scan.bitmap_alpha (hprint : 0x20 ≤ code.toNat) (h : st.gfx = false ∨ code.getLsbD 5 = false) :
    st.bitmap c code k lower = ttGlyph c code (st.erow k lower) := by
  have hcontrol : ¬ isControl code = true := by rw [isControl_iff]; omega
  rw [Scan.bitmap, if_neg hcontrol, Scan.isMosaic_eq_false (.inr h)]
  rfl

theorem Scan.bitmap_control_blank (hcontrol : code.toNat < 0x20) (h : st.hold = false ∨ st.held = none) :
    st.bitmap c code k lower = 0#12 := by
  rw [Scan.bitmap, if_pos (isControl_iff.2 hcontrol)]
  rcases h with h | h
  · rw [h]
  · rw [h]
    cases st.hold <;> rfl

theorem Scan.bitmap_control_held {hc : Byte} {hs : Bool} (hcontrol : code.toNat < 0x20) (hhold : st.hold = true)
    (hheld : st.held = some (hc, hs)) :
    st.bitmap c code k lower = ttMosaic c hc (st.erow k lower) hs (st.dh && lower) := by
  rw [Scan.bitmap, if_pos (isControl_iff.2 hcontrol), hhold, hheld]

end Scan

/-! ## Flash and cursor (44_teletext.md R297, R299) -/

theorem flashVisible_iff {fc : Word32} : flashVisible fc = true ↔ 21 ≤ fc.toNat % 64 := decide_eq_true_iff

/-- The frame counter's wrap does not disturb the flash period. -/
theorem flashVisible_add (fc : Word32) (i : Nat) :
    flashVisible (fc + BitVec.ofNat 32 i) = decide (21 ≤ (fc.toNat + i) % 64) := by
  have hwrap : (fc + BitVec.ofNat 32 i).toNat % 64 = (fc.toNat + i) % 64 := by
    rw [BitVec.toNat_add, BitVec.toNat_ofNat, Nat.add_mod_mod]
    exact Nat.mod_mod_of_dvd _ (by decide)
  rw [Bool.eq_iff_iff, flashVisible_iff, hwrap, decide_eq_true_iff]

/-- 43 of the first 64 frames are visible, and the phase has period 64, so of any 64 consecutive frames too. -/
theorem visible_count (n : Nat) : Nat.count (fun i => 21 ≤ (n + i) % 64) 64 = 43 := by
  have hfirst : Nat.count (fun i => 21 ≤ i % 64) 64 = 43 := by decide
  have hsplit := Nat.count_add (fun i => 21 ≤ i % 64) n 64
  have hsplit' := Nat.count_add' (fun i => 21 ≤ i % 64) n 64
  simp only [Nat.add_mod_right] at hsplit'
  omega

section Overlays

variable {st : Scan} {c : TtCfg} {x : LineCtx} {col : Nat} {bm : BitVec 12}

theorem ttCursorOn_iff : ttCursorOn c x col = true ↔
    x.ttStart + BitVec.ofNat 16 (40 * ((x.target - c.vStart) / 20) + col) = x.ttCursor ∧
      c.cursorBandStart ≤ (x.target - c.vStart) % 20 ∧ x.fc.toNat % c.cursorPeriod < c.cursorOn := by
  simp only [ttCursorOn, cursorBlinkOn, Bool.and_eq_true, beq_iff_eq, decide_eq_true_eq, and_assoc]
  rfl

/-- Blanked by flash and conceal, then inverted by the cursor. -/
theorem Scan.shown_eq : st.shown c x col bm =
    if ttCursorOn c x col = true then
      (if (st.flash = true ∧ x.fc.toNat % 64 < 21) ∨ (st.conceal = true ∧ x.reveal = false) then 0#12 else bm) ^^^ 0xFFF#12
    else if (st.flash = true ∧ x.fc.toNat % 64 < 21) ∨ (st.conceal = true ∧ x.reveal = false) then 0#12 else bm := by
  have hblank : (!flashVisible x.fc) = true ↔ x.fc.toNat % 64 < 21 := by
    rw [Bool.not_eq_true', Bool.eq_false_iff, ne_eq, flashVisible_iff, Nat.not_le]
  unfold Scan.shown
  simp only [Bool.and_eq_true, hblank, Bool.not_eq_true']
  by_cases hflash : st.flash = true ∧ x.fc.toNat % 64 < 21 <;> simp [hflash]

/-- Away from the cursor a cell that neither flashes nor is concealed shows its bitmap, in the state after its code's phase 1. -/
theorem ttCell_plain {rd : LineRead → Byte} {code : Byte} (hcode : ttCode (rd (.cell col)) = code)
    (hst : (scanBefore rd col).setAt code = st) (hflash : st.flash = false) (hconceal : st.conceal = false)
    (hcursor : ttCursorOn c x col = false) :
    ttCell c x rd col = ⟨st.bitmap c code (ttSubline c x.target) (ttLower c x), st.fg, st.bg⟩ := by
  subst hcode hst
  simp [ttCell, Scan.shown, hflash, hconceal, hcursor]

theorem TtCell.dot_blank (fg bg : BitVec 3) (i : Nat) : TtCell.dot ⟨0#12, fg, bg⟩ c i = ttColour c bg := by
  simp [TtCell.dot]

end Overlays

/-! ## The dot's pixel (44_teletext.md R280, R300) -/

theorem ttActive_iff {c : TtCfg} {t : Nat} : ttActive c t = true ↔ c.vStart ≤ t ∧ t < c.vStart + 500 := by
  rw [ttActive, Bool.and_eq_true, decide_eq_true_eq, decide_eq_true_eq]
  rfl

/-- The pixels of the span are those of 480 dots of `xscale` pixels each. -/
theorem ttInSpan_add {c : TtCfg} {n : Nat} (h : n < 480 * c.xscale) : ttInSpan c (c.hStart + n) = true := by
  simp [ttInSpan, Config.ttCols, Config.ttCellW, h]

/-- Dot `dot` of column `col`, in each of its output pixels. -/
theorem ttPixel_dot {c : TtCfg} {x : LineCtx} {rd : LineRead → Byte} (hact : ttActive c x.target = true) {col dot k : Nat}
    (hcol : col < 40) (hdot : dot < 12) (hk : k < c.xscale) :
    ttPixel c x rd (c.hStart + (12 * col + dot) * c.xscale + k) = (ttCell c x rd col).dot c dot := by
  have hspan : ttInSpan c (c.hStart + (12 * col + dot) * c.xscale + k) = true := by
    rw [Nat.add_assoc]
    exact ttInSpan_add (run_lt (by omega) hk)
  have hc : (12 * col + dot) / 12 = col := by omega
  have hd : (12 * col + dot) % 12 = dot := by omega
  simp only [ttPixel, hact, hspan, Bool.and_self, if_true, ttColumnOf, run_index _ _ hk, Config.ttCellW, hc, hd]

theorem linePixel_ttCell {c : Cfg} {x : LineCtx} {rd : LineRead → Byte} (hr : x.renderer = .teletext)
    (hact : ttActive c.tt x.target = true) {col dot k : Nat} (hcol : col < 40) (hdot : dot < 12) (hk : k < c.tt.xscale) :
    linePixel c x rd (c.tt.hStart + (12 * col + dot) * c.tt.xscale + k) = (ttCell c.tt x rd col).dot c.tt dot := by
  rw [linePixel, hr]
  exact ttPixel_dot hact hcol hdot hk

/-! ## The nibble expansion (44_teletext.md R301) -/

theorem ttExpand_byte (q : BitVec 4) (f b : Pixel) {j : Nat} (hj : j < 4) :
    (ttExpand q f b).extractLsb' (8 * j) 8 = if q.getLsbD (3 - j) then f else b := by
  unfold ttExpand
  match j, hj with
  | 0, _ => exact BitVec.extractLsb'_append_eq_right
  | 1, _ =>
    rw [BitVec.extractLsb'_append_eq_of_le (by decide)]
    exact BitVec.extractLsb'_append_eq_right
  | 2, _ =>
    rw [BitVec.extractLsb'_append_eq_of_le (by decide), BitVec.extractLsb'_append_eq_of_le (by decide)]
    exact BitVec.extractLsb'_append_eq_right
  | 3, _ =>
    rw [BitVec.extractLsb'_append_eq_of_le (by decide), BitVec.extractLsb'_append_eq_of_le (by decide),
      BitVec.extractLsb'_append_eq_of_le (by decide)]
    exact BitVec.extractLsb'_eq_self

/-! ## The lookahead a step leaves (44_teletext.md R285, R290) -/

section Commit

variable {s : State} {x : LineCtx} {rd : LineRead → Byte}

theorem ttCommit_inactive (h : ttActive s.cfg.tt x.target = false) : ttCommit s x rd = s := by
  simp [ttCommit, h]

theorem ttCommit_first_subline (h : ttActive s.cfg.tt x.target = true) (hk : ttSubline s.cfg.tt x.target = 0) :
    ttCommit s x rd = { s with
      ttLowerCur := ttLower s.cfg.tt x, ttLowerNext := (scanBefore rd Config.ttCols).rowDh } := by
  simp only [ttCommit, h, hk, if_true]

theorem ttCommit_later_subline (h : ttActive s.cfg.tt x.target = true) (hk : ttSubline s.cfg.tt x.target ≠ 0) :
    ttCommit s x rd = { s with ttLowerNext := s.ttLowerNext || (scanBefore rd Config.ttCols).rowDh } := by
  simp only [ttCommit, h, if_neg hk, if_true]

/-- On sub-line 0 the lookahead says whether the row is a lower half; row 0 is none. -/
theorem ttLower_first_subline {c : TtCfg} (hk : ttSubline c x.target = 0) :
    ttLower c x = if x.target - c.vStart < 20 then false else x.lowerNext := by
  have hrow : ttRow c x.target = 0 ↔ x.target - c.vStart < 20 := Nat.div_eq_zero_iff_lt (by decide)
  simp only [ttLower, hk, if_true, hrow]

end Commit

/-- The commit's lookahead depends on no state but the configuration and the lookahead before. -/
theorem ttCommit_lookahead_congr {s u : State} (x : LineCtx) (rd : LineRead → Byte) (hcfg : u.cfg = s.cfg)
    (h : u.ttLowerCur = s.ttLowerCur ∧ u.ttLowerNext = s.ttLowerNext) :
    (ttCommit u x rd).ttLowerCur = (ttCommit s x rd).ttLowerCur ∧
      (ttCommit u x rd).ttLowerNext = (ttCommit s x rd).ttLowerNext := by
  obtain ⟨hcur, hnext⟩ := h
  simp only [ttCommit, hcfg]
  split
  · split
    · exact ⟨rfl, rfl⟩
    · exact ⟨hcur, by rw [hnext]⟩
  · exact ⟨hcur, hnext⟩

/-- The lookahead a teletext step leaves is that of its commit, made from the state at the pop. -/
theorem exec_renderStep_teletextLine {s : State} {p : Word32} (hf : s.fatal = none) (hp : s.rendPhase = .idle)
    (hne : s.rqHead ≠ s.rqTail) (htok : s.rqSlotAt s.rqTail = .line p) {x : LineCtx}
    (hr : s.latched (targetLine s.cfg p) = .teletext) (hx : x = s.lineCtx .teletext (targetLine s.cfg p)) :
    ∃ u, exec .renderStep s = .next u ∧ u.ttLowerCur = (ttCommit s x (s.liveRead x)).ttLowerCur ∧
      u.ttLowerNext = (ttCommit s x (s.liveRead x)).ttLowerNext := by
  refine ⟨_, exec_renderStep_line hf hp hne htok, ?_⟩
  rw [State.stepFinish_poppedLine, hr, ← hx]
  subst hx
  exact ttCommit_lookahead_congr _ _ rfl ⟨rfl, rfl⟩

/-! ## The CRTC-style latch (44_teletext.md R303-R305) -/

/-- The latch's three registers (44_teletext.md R303). -/
structure Latch where
  idx    : Byte
  start  : Addr
  cursor : Addr

def State.latch (s : State) : Latch := ⟨s.ttCrtcIdx, s.ttStart, s.ttCursor⟩

/-- What a port write with its dispatch asks of a state and keeps: the pipeline runs, the ring is empty, the IRQ agent may dispatch,
and both ports accept writes. -/
structure PortsReady (c : Cfg) (l : Latch) (s : State) : Prop where
  handler  : HandlerReady s
  running  : s.paused = false
  drained  : s.R = s.W
  cfg      : s.cfg = c
  latch    : s.latch = l
  addrPort : (s.permAt c.tt.crtcAddr).getLsbD 1 = true
  dataPort : (s.permAt c.tt.crtcData).getLsbD 1 = true

section Latch

variable {c : Cfg} {l l' : Latch} {s : State} {addr : Addr} (v : Byte)

theorem State.crtcData_startHi (h : s.ttCrtcIdx = s.cfg.tt.crtcStartHi) :
    s.crtcData v = { s with ttStart := v ++ s.ttStart.extractLsb' 0 8 } := if_pos h

theorem State.crtcData_startLo (h : s.ttCrtcIdx = s.cfg.tt.crtcStartLo)
    (hne : s.cfg.tt.crtcStartHi ≠ s.cfg.tt.crtcStartLo) :
    s.crtcData v = { s with ttStart := s.ttStart.extractLsb' 8 8 ++ v } := by
  rw [State.crtcData, h, if_neg hne.symm, if_pos rfl]

theorem State.applyEvent_crtcIndex (h : classify s.cfg addr = .crtcIndex) :
    s.applyEvent addr v = { s with ttCrtcIdx := v } := by
  rw [State.applyEvent, h]
  rfl

theorem State.applyEvent_crtcData (h : classify s.cfg addr = .crtcData) :
    s.applyEvent addr v = s.crtcData v := by
  rw [State.applyEvent, h]

/-- A delivery changes the latch as the record's effect does. -/
theorem State.deliver_latch : (s.deliver addr).latch = (s.applyEvent addr (s.readByte addr)).latch := rfl

section Recorded

variable (h : PortsReady c l s) (hw : (s.permAt addr).getLsbD 1 = true)
include h hw

theorem PortsReady.capture_W : (s.capture addr v).W = s.W + 1#32 := by
  rw [State.capture_W addr v h.running, if_pos (Perm.qualifies_of_write _ hw)]

/-- The record of a captured port write is the one unread record. -/
theorem PortsReady.resynced_capture : (s.capture addr v).resynced (s.capture addr v).W = s.W := by
  have hR : (s.capture addr v).R = s.W := by rw [State.capture_frame]; exact h.drained
  have hcap : 0 < (s.capture addr v).cfg.evsCap := by rw [State.capture_frame]; exact h.handler.evsCap
  have hgap : ((s.capture addr v).W - s.W).toNat = 1 := by rw [h.capture_W v hw]; bv_omega
  rw [State.resynced, hR, hgap, if_neg (by omega)]

theorem PortsReady.evSlot_capture : (s.capture addr v).evSlot s.W = addr := by
  rw [State.evSlot_capture addr v h.running (Perm.qualifies_of_write _ hw), if_pos rfl]

/-- After a port write and its dispatch the latch is what the port's effect makes of it with the byte written. -/
theorem PortsReady.latch_dispatched (hl : ∀ u : State, u.cfg = c → u.latch = l → (u.applyEvent addr v).latch = l') :
    (s.capture addr v).dispatched.latch = l' := by
  have hread : (s.capture addr v).readByte addr = v := by
    rw [State.readByte_capture addr v h.running, if_pos ⟨rfl, hw⟩]
  have hcfg : (s.capture addr v).cfg = c := by rw [State.capture_frame]; exact h.cfg
  have hlatch : (s.capture addr v).latch = l := by rw [State.capture_frame]; exact h.latch
  rw [State.dispatched, h.resynced_capture v hw, h.evSlot_capture v hw, State.deliver_latch]
  exact (congrArg (fun b => (State.applyEvent _ addr b).latch) hread).trans (hl _ hcfg hlatch)

/-- A port write and its dispatch leave the port's effect on the latch, and the ring empty again. -/
theorem PortsReady.exec_write_dispatch (hl : ∀ u : State, u.cfg = c → u.latch = l → (u.applyEvent addr v).latch = l') :
    ∃ t, PortsReady c l' t ∧ ∀ is, execAll (.busWr addr v :: .eventDispatch :: is) s = execAll is t := by
  have hready : HandlerReady (s.capture addr v) := by
    rw [State.capture_frame]
    exact ⟨h.handler.fatal, h.handler.irqPhase, h.handler.irqEnabled, h.handler.evsCap⟩
  have hpending : (s.capture addr v).R ≠ (s.capture addr v).W := by
    have hdrained := h.drained
    rw [h.capture_W v hw, State.capture_frame]
    bv_omega
  have hframe := State.dispatched_frame (s.capture addr v)
  refine ⟨_, ⟨hready.dispatched, ?running, ?drained, ?cfg, h.latch_dispatched v hw hl, ?addrPort, ?dataPort⟩, fun is => ?run⟩
  case running => rw [hframe, State.capture_frame]; exact h.running
  case drained => rw [hframe, h.resynced_capture v hw]; exact (h.capture_W v hw).symm
  case cfg => rw [hframe, State.capture_frame]; exact h.cfg
  case addrPort => rw [hframe, State.capture_frame]; exact h.addrPort
  case dataPort => rw [hframe, State.capture_frame]; exact h.dataPort
  case run =>
    have hdispatch : exec .eventDispatch (s.capture addr v) = .next (s.capture addr v).dispatched :=
      hready.execEventDispatch_record hpending
    rw [execAll, exec_busWr addr v h.handler.fatal]
    simp only [execAll, hdispatch]

end Recorded

theorem PortsReady.exec_index (h : PortsReady c l s) (hclass : classify c c.tt.crtcAddr = .crtcIndex) :
    ∃ t, PortsReady c { l with idx := v } t ∧
      ∀ is, execAll (.busWr c.tt.crtcAddr v :: .eventDispatch :: is) s = execAll is t := by
  refine h.exec_write_dispatch v h.addrPort fun u hc hu => ?_
  subst hc hu
  rw [State.applyEvent_crtcIndex v hclass]
  rfl

theorem PortsReady.exec_startHi (h : PortsReady c l s) (hclass : classify c c.tt.crtcData = .crtcData)
    (hidx : l.idx = c.tt.crtcStartHi) :
    ∃ t, PortsReady c { l with start := v ++ l.start.extractLsb' 0 8 } t ∧
      ∀ is, execAll (.busWr c.tt.crtcData v :: .eventDispatch :: is) s = execAll is t := by
  refine h.exec_write_dispatch v h.dataPort fun u hc hu => ?_
  subst hc hu
  rw [State.applyEvent_crtcData v hclass, State.crtcData_startHi v hidx]
  rfl

theorem PortsReady.exec_startLo (h : PortsReady c l s) (hclass : classify c c.tt.crtcData = .crtcData)
    (hidx : l.idx = c.tt.crtcStartLo) (hne : c.tt.crtcStartHi ≠ c.tt.crtcStartLo) :
    ∃ t, PortsReady c { l with start := l.start.extractLsb' 8 8 ++ v } t ∧
      ∀ is, execAll (.busWr c.tt.crtcData v :: .eventDispatch :: is) s = execAll is t := by
  refine h.exec_write_dispatch v h.dataPort fun u hc hu => ?_
  subst hc hu
  rw [State.applyEvent_crtcData v hclass, State.crtcData_startLo v hidx hne]
  rfl

end Latch

end Sys2Proof.Machine

namespace Sys2Proof.Proofs

open Sys2Proof.Machine

/-- Settles O49: the byte of the word is the nibble's bit (`ttExpand_byte`). -/
theorem nibbleExpansionAgrees : Obligations.NibbleExpansionAgrees := by
  refine ⟨fun cell c i j hi hj => ?_, rfl⟩
  have hbit : 8 - 4 * i + (3 - j) = 11 - (4 * i + j) := by omega
  have hlt : 3 - j < 4 := by omega
  rw [ttExpand_byte _ _ _ hj, BitVec.getLsbD_extractLsb', decide_eq_true hlt, Bool.true_and, hbit, TtCell.dot]
  exact (apply_ite (ttColour c) ..).symm

/-- Settles O48: the counter's wrap drops out (`flashVisible_add`), and the span is counted by `visible_count`. -/
theorem flashVisible43Of64 : Obligations.FlashVisible43Of64 := by
  refine fun fc => ⟨flashVisible_iff, ?_⟩
  simp only [flashVisible_add, ← List.countP_eq_length_filter]
  exact visible_count fc.toNat

/-- Settles O45: one equation per code of the two tables, and the lemmas that no other code is in one. -/
theorem controlCodeEffects : Obligations.ControlCodeEffects := by
  refine ⟨fun rd col => ⟨rfl, rfl⟩, fun st code => ⟨rfl, rfl, rfl, rfl, rfl, rfl, rfl, rfl, rfl, Scan.setAt_of_not_mem,
    fun n hlo hhi => ?alpha, fun n hlo hhi => ?graphics, rfl, rfl, rfl, Scan.setAfter_of_not_mem, fun hprint hgfx hbit => ?mosaic,
    fun h => Scan.holdMosaic_of_not_mosaic (Scan.isMosaic_eq_false h), fun h => ?inert⟩⟩
  case alpha => interval_cases n <;> rfl
  case graphics => interval_cases n <;> rfl
  case mosaic => exact Scan.holdMosaic_of_mosaic (Scan.isMosaic_iff.2 ⟨hprint, hgfx, hbit⟩)
  case inert =>
    obtain ⟨-, -, hcontrol⟩ := inertCodes_disjoint code h
    exact ⟨Scan.next_of_inert h, fun _ _ _ => Scan.bitmap_control_blank hcontrol,
      fun _ _ _ _ _ => Scan.bitmap_control_held hcontrol⟩

/-- Settles O47: the bitmap of each kind of cell. -/
theorem teletextCellContent : Obligations.TeletextCellContent := by
  rintro st c code k erow lower hk rfl
  exact ⟨Scan.erow_lt hk, fun hprint hgfx hbit => Scan.bitmap_mosaic (Scan.isMosaic_iff.2 ⟨hprint, hgfx, hbit⟩),
    Scan.bitmap_alpha, Scan.bitmap_control_blank, fun hcontrol _ _ => Scan.bitmap_control_held hcontrol⟩

/-- Settles O46: the dot (`linePixel_ttCell`) of the cell's bitmap under its overlays (`Scan.shown_eq`). -/
theorem teletextCellPixels : Obligations.TeletextCellPixels := by
  rintro c x rd col dot k sub code st bm0 bm hr hlo hhi hcol hdot hk rfl rfl rfl rfl rfl
  rw [linePixel_ttCell hr (ttActive_iff.2 ⟨hlo, hhi⟩) hcol hdot hk]
  simp only [← ttCursorOn_iff]
  exact congrArg (fun bm => TtCell.dot ⟨bm, _, _⟩ c.tt dot) Scan.shown_eq

/-- Settles O44: the dots of two cells (`linePixel_ttCell`), neither under an overlay (`ttCell_plain`): a control cell without hold,
and an alpha cell in graphics mode. -/
theorem teletextTwoPhaseExample : Obligations.TeletextTwoPhaseExample := by
  intro c x rd dot k hr hlo hhi hdot hk hcode0 hcode1 hcursor0 hcursor1
  have hact : ttActive c.tt x.target = true := ttActive_iff.2 ⟨hlo, hhi⟩
  have hscan1 : scanBefore rd 1 = Scan.redGraphics := scanBefore_succ hcode0
  have hscan2 : scanBefore rd 2 = Scan.redGraphics := by
    rw [scanBefore_succ hcode1, hscan1]
    rfl
  have hcell0 : ttCell c.tt x rd 0 = ⟨0#12, 7#3, 0#3⟩ := by
    rw [ttCell_plain hcode0 (st := Scan.start) rfl rfl rfl hcursor0, Scan.bitmap_control_blank (by decide) (.inl rfl)]
    rfl
  have hcell1 : ttCell c.tt x rd 1 = ⟨ttGlyph c.tt 0x41#8 ((x.target - c.tt.vStart) % 20), 1#3, 0#3⟩ := by
    have hst : (scanBefore rd 1).setAt 0x41#8 = Scan.redGraphics := by rw [hscan1]; rfl
    rw [ttCell_plain hcode1 hst rfl rfl hcursor1, Scan.bitmap_alpha (by decide) (.inr (by decide))]
    rfl
  have hdot0 := linePixel_ttCell (rd := rd) hr hact (col := 0) (by decide) hdot hk
  have hdot1 := linePixel_ttCell (rd := rd) hr hact (col := 1) (by decide) hdot hk
  rw [hcell0, TtCell.dot_blank, Nat.mul_zero, Nat.zero_add] at hdot0
  rw [hcell1, Nat.mul_one] at hdot1
  rw [hscan2]
  refine ⟨hdot0, hdot1.trans ?_, rfl, rfl, rfl⟩
  exact congrArg (Sparse.get 0#8 c.tt.palette) (apply_ite BitVec.toNat ..)

/-- Settles O50: the step ends with `ttCommit`, in the context it took at its pop; the row's flag is `scanBefore_rowDh_iff`. -/
theorem teletextLookahead : Obligations.TeletextLookahead := by
  rintro s p t x hf hp hne htok rfl hr hx
  obtain ⟨u, hexec, hcur, hnext⟩ := exec_renderStep_teletextLine hf hp hne htok hr hx
  have htarget : x.target = (p.toNat + s.cfg.nPool - 1) % s.cfg.frameLines := by rw [hx]; rfl
  have hlower : x.lowerNext = s.ttLowerNext := by rw [hx]; rfl
  rw [← htarget]
  refine ⟨u, hexec, fun hlo hhi => ⟨fun hk => ?first, fun hk => ?later⟩, fun hout => ?inactive⟩ <;> rw [hcur, hnext]
  case first =>
    rw [ttCommit_first_subline (ttActive_iff.2 ⟨hlo, hhi⟩) hk]
    exact ⟨hlower ▸ ttLower_first_subline hk, scanBefore_rowDh_iff⟩
  case later =>
    rw [ttCommit_later_subline (ttActive_iff.2 ⟨hlo, hhi⟩) hk]
    exact ⟨rfl, Bool.or_eq_true_iff.trans (or_congr_right scanBefore_rowDh_iff)⟩
  case inactive =>
    have hact : ttActive s.cfg.tt x.target = false := Bool.eq_false_iff.2 fun h => by rw [ttActive_iff] at h; omega
    rw [ttCommit_inactive hact]
    exact ⟨rfl, rfl⟩

/-- Settles O26: four port writes, each with its dispatch (`PortsReady.exec_write_dispatch`). -/
theorem crtcStartLoadedByPortWrites : Obligations.CrtcStartLoadedByPortWrites := by
  intro s hi lo hf hwf hpause hp he hRW haddr hdata hindex hclass hne
  obtain ⟨hcap, -, -⟩ := evsCap_of_wf hwf
  have h0 : PortsReady s.cfg s.latch s := ⟨⟨hf, hp, he, hcap⟩, hpause, hRW, rfl, rfl, haddr, hdata⟩
  obtain ⟨s1, h1, hrun1⟩ := h0.exec_index s.cfg.tt.crtcStartHi hindex
  obtain ⟨s2, h2, hrun2⟩ := h1.exec_startHi hi hclass rfl
  obtain ⟨s3, h3, hrun3⟩ := h2.exec_index s.cfg.tt.crtcStartLo hindex
  obtain ⟨t, h4, hrun4⟩ := h3.exec_startLo lo hclass rfl hne
  refine ⟨t, by rw [hrun1, hrun2, hrun3, hrun4, execAll], ?_, congrArg Latch.cursor h4.latch, congrArg Latch.idx h4.latch,
    h4.drained⟩
  calc t.ttStart = (hi ++ s.ttStart.extractLsb' 0 8).extractLsb' 8 8 ++ lo := congrArg Latch.start h4.latch
    _ = hi ++ lo := by rw [BitVec.extractLsb'_append_eq_left]

end Sys2Proof.Proofs

/-! The audio consumer (45_audio.md), O20, O24, O25 and O51 to O55. A push of the audio FIFO, the effect of a record by its class and a
tick's sub-actions are said once each; AUDIO_INIT's sub-actions are two runs of tag writes from `fillPhase` on. -/

namespace Sys2Proof.Machine

/-! ## Pushes of the audio FIFO (45_audio.md R347) -/

section Push

variable {s : State} (e : Entry)

theorem State.afPush_frame :
    s.afPush e = { s with afSlot := (s.afPush e).afSlot, afHead := (s.afPush e).afHead } := by
  unfold State.afPush
  split <;> rfl

theorem State.afPush_afHead_room (h : s.afCount.toNat ≠ s.cfg.afifoCap) : (s.afPush e).afHead = s.afHead + 1#32 := by
  rw [State.afPush_room h]

theorem State.afSlotAt_afPush_room (h : s.afCount.toNat ≠ s.cfg.afifoCap) (n : Word32) : (s.afPush e).afSlotAt n =
    if slotOf n s.cfg.afifoCap = slotOf s.afHead s.cfg.afifoCap then e else s.afSlotAt n := by
  rw [State.afPush_room h]
  exact Sparse.get_set ..

end Push

/-! ## The classes of a record (45_audio.md R346) -/

section Classify

variable {c : Cfg} {a : Addr}

theorem classify_eq_audio_iff : classify c a = .audio ↔
    c.audio.base.toNat ≤ a.toNat ∧ a.toNat < c.audio.base.toNat + c.audio.woLen := by
  unfold classify
  split
  next h => simpa using h
  next h =>
    have h : ¬ (c.audio.base.toNat ≤ a.toNat ∧ a.toNat < c.audio.base.toNat + c.audio.woLen) := by simpa using h
    simp only [h, iff_false]
    split
    · simp
    · split <;> simp

theorem classify_eq_crtcIndex_iff : classify c a = .crtcIndex ↔ classify c a ≠ .audio ∧ a = c.tt.crtcAddr := by
  unfold classify
  split_ifs <;> simp_all

theorem classify_eq_crtcData_iff : classify c a = .crtcData ↔
    classify c a ≠ .audio ∧ a ≠ c.tt.crtcAddr ∧ a = c.tt.crtcData := by
  unfold classify
  split_ifs <;> simp_all

theorem classify_eq_ignored_iff : classify c a = .ignored ↔
    classify c a ≠ .audio ∧ a ≠ c.tt.crtcAddr ∧ a ≠ c.tt.crtcData := by
  unfold classify
  split_ifs <;> simp_all

end Classify

/-! ## The effect of a record (45_audio.md R345) -/

section Effect

variable {s : State} {loc : Addr} (v : Byte)

theorem State.applyEvent_audio (h : classify s.cfg loc = .audio) :
    s.applyEvent loc v = s.afPush (audioEntry s.cfg loc v) := by
  rw [State.applyEvent, h]

theorem State.applyEvent_ignored (h : classify s.cfg loc = .ignored) : s.applyEvent loc v = s := by
  rw [State.applyEvent, h]

/-- Only a record of the audio range reaches the FIFO. -/
theorem State.applyEvent_afifo (h : classify s.cfg loc ≠ .audio) :
    (s.applyEvent loc v).afHead = s.afHead ∧ (s.applyEvent loc v).afSlot = s.afSlot := by
  unfold State.applyEvent
  split
  next ha => exact absurd ha h
  next => exact ⟨rfl, rfl⟩
  next => rw [State.crtcData_frame]; exact ⟨rfl, rfl⟩
  next => exact ⟨rfl, rfl⟩

/-- Only a record of the index port reaches the index. -/
theorem State.applyEvent_ttCrtcIdx (h : classify s.cfg loc ≠ .crtcIndex) :
    (s.applyEvent loc v).ttCrtcIdx = s.ttCrtcIdx := by
  unfold State.applyEvent
  split
  next => exact State.afPush_ttCrtcIdx s _
  next hi => exact absurd hi h
  next => rw [State.crtcData_frame]
  next => rfl

/-- Only a record of the data port reaches the start and cursor registers. -/
theorem State.applyEvent_ttStart_ttCursor (h : classify s.cfg loc ≠ .crtcData) :
    (s.applyEvent loc v).ttStart = s.ttStart ∧ (s.applyEvent loc v).ttCursor = s.ttCursor := by
  unfold State.applyEvent
  split
  next => exact ⟨State.afPush_ttStart s _, State.afPush_ttCursor s _⟩
  next => exact ⟨rfl, rfl⟩
  next hd => exact absurd hd h
  next => exact ⟨rfl, rfl⟩

/-- A byte for the data port is written into the half of the register the index names (44_teletext.md R305). -/
theorem State.crtcData_halves (s : State) :
    (s.ttCrtcIdx = s.cfg.tt.crtcStartHi →
      (s.crtcData v).ttStart = v ++ s.ttStart.extractLsb' 0 8 ∧ (s.crtcData v).ttCursor = s.ttCursor) ∧
    (s.ttCrtcIdx ≠ s.cfg.tt.crtcStartHi → s.ttCrtcIdx = s.cfg.tt.crtcStartLo →
      (s.crtcData v).ttStart = s.ttStart.extractLsb' 8 8 ++ v ∧ (s.crtcData v).ttCursor = s.ttCursor) ∧
    (s.ttCrtcIdx ≠ s.cfg.tt.crtcStartHi → s.ttCrtcIdx ≠ s.cfg.tt.crtcStartLo → s.ttCrtcIdx = s.cfg.tt.crtcCursorHi →
      (s.crtcData v).ttStart = s.ttStart ∧ (s.crtcData v).ttCursor = v ++ s.ttCursor.extractLsb' 0 8) ∧
    (s.ttCrtcIdx ≠ s.cfg.tt.crtcStartHi → s.ttCrtcIdx ≠ s.cfg.tt.crtcStartLo → s.ttCrtcIdx ≠ s.cfg.tt.crtcCursorHi →
      s.ttCrtcIdx = s.cfg.tt.crtcCursorLo →
      (s.crtcData v).ttStart = s.ttStart ∧ (s.crtcData v).ttCursor = s.ttCursor.extractLsb' 8 8 ++ v) ∧
    (s.ttCrtcIdx ∉ [s.cfg.tt.crtcStartHi, s.cfg.tt.crtcStartLo, s.cfg.tt.crtcCursorHi, s.cfg.tt.crtcCursorLo] →
      (s.crtcData v).ttStart = s.ttStart ∧ (s.crtcData v).ttCursor = s.ttCursor) := by
  refine ⟨fun h => ?startHi, fun h1 h => ?startLo, fun h1 h2 h => ?cursorHi, fun h1 h2 h3 h => ?cursorLo, fun h => ?other⟩
  case startHi =>
    rw [State.crtcData_startHi v h]
    exact ⟨rfl, rfl⟩
  case startLo =>
    rw [State.crtcData_startLo v h fun he => h1 (h.trans he.symm)]
    exact ⟨rfl, rfl⟩
  case cursorHi =>
    rw [State.crtcData, if_neg h1, if_neg h2, if_pos h]
    exact ⟨rfl, rfl⟩
  case cursorLo =>
    rw [State.crtcData, if_neg h1, if_neg h2, if_neg h3, if_pos h]
    exact ⟨rfl, rfl⟩
  case other =>
    simp only [List.mem_cons, List.not_mem_nil, or_false, not_or] at h
    obtain ⟨h1, h2, h3, h4⟩ := h
    rw [State.crtcData, if_neg h1, if_neg h2, if_neg h3, if_neg h4]
    exact ⟨rfl, rfl⟩

end Effect

/-! ## EVENT_DISPATCH (45_audio.md R345) -/

section Dispatch

variable {s : State} (hf : s.fatal = none) (hp : s.irqPhase = .idle) (he : s.irqEnabled = true)
include hf hp he

theorem exec_eventDispatch_empty (hRW : s.R = s.W) : exec .eventDispatch s = .next (s.answer .irq .empty) := by
  have hidle : (s.answer .irq .empty).irqAdvance = s.answer .irq .empty := State.irqAdvance_idle hp
  rw [exec_go hf (State.admission_eventDispatch_idle hp he), effect, State.pollSample_empty hRW, PollFor.emptyResult, hidle,
    hidle]

theorem exec_eventDispatch_record (hRW : s.R ≠ s.W) : exec .eventDispatch s = .next s.dispatched := by
  rw [exec_go hf (State.admission_eventDispatch_idle hp he), effect, State.pollSample_record hRW]
  rfl

end Dispatch

/-- The state between the sub-actions (2) and (3) of a dispatch of the record in the cursor's slot. -/
def State.recordTaken (s : State) : State :=
  { s with R := s.resynced s.W + 1#32, irqPhase := .delivering (s.evSlot (s.resynced s.W)) }

/-- Sub-action (3) applies the record with the byte its cell holds now, and returns its class. -/
theorem State.deliver_eq {s : State} {loc : Addr} {v : Byte} (h : s.readByte loc = v) : s.deliver loc =
    { s.applyEvent loc v with
      irqPhase := .idle, results := (.irq, .handled loc (classify s.cfg loc)) :: s.results } := by
  rw [State.deliver, h, State.applyEvent_frame]
  rfl

theorem State.irqAdvance_dispatching {s : State} {w : Word32} (hp : s.irqPhase = .polling w .dispatch) :
    s.irqAdvance = { s with R := s.R + 1#32, irqPhase := .delivering (s.evSlot s.R) } := by
  simp only [State.irqAdvance, hp]
  rfl

theorem State.irqAdvance_delivering {s : State} {loc : Addr} (hp : s.irqPhase = .delivering loc) :
    s.irqAdvance = s.deliver loc := by
  simp only [State.irqAdvance, hp]

/-- A dispatch applies the oldest record held with the byte its cell holds. -/
theorem State.dispatched_eq {s : State} {loc : Addr} (h : s.evSlot (s.resynced s.W) = loc) : s.dispatched =
    { s.recordTaken.applyEvent loc (s.readByte loc) with
      irqPhase := .idle, results := (.irq, .handled loc (classify s.cfg loc)) :: s.results } := by
  subst h
  exact State.deliver_eq (s := s.recordTaken) rfl

/-! ## Entries applied (45_audio.md R351, R353) -/

/-- The offset of a register of the audio range, where its length fits 8 bits. -/
theorem audioEntry_off {c : Cfg} {loc : Addr} (v : Byte) (hlo : c.audio.base.toNat ≤ loc.toNat)
    (hhi : loc.toNat < c.audio.base.toNat + c.audio.woLen) (hlen : c.audio.woLen ≤ 256) :
    (audioEntry c loc v).off.toNat = loc.toNat - c.audio.base.toNat := by
  have := loc.isLt
  simp only [audioEntry, BitVec.toNat_setWidth, BitVec.toNat_sub]
  omega

/-- No register write spells the sentinel. -/
theorem setWidth_ne_sentinel (v : Byte) : v.setWidth 9 ≠ Config.sentinel := by
  unfold Config.sentinel
  bv_omega

theorem synthApply_audioEntry {c : Cfg} {loc : Addr} (y : SynthState) (v : Byte) (hlo : c.audio.base.toNat ≤ loc.toNat)
    (hhi : loc.toNat < c.audio.base.toNat + c.audio.woLen) (hlen : c.audio.woLen ≤ 256) :
    synthApply y (audioEntry c loc v) = Config.synthWrite y (loc.toNat - c.audio.base.toNat) v := by
  have hval : (audioEntry c loc v).val.setWidth 8 = v := BitVec.setWidth_setWidth_of_le v (by decide)
  have hne : (audioEntry c loc v).val ≠ Config.sentinel := setWidth_ne_sentinel v
  rw [synthApply, if_neg hne, audioEntry_off v hlo hhi hlen, hval]

/-- Applying the oldest entries leaves the others. -/
theorem State.afEntries_drain (es : List Entry) {s : State} {rest : List Entry} (h : s.afEntries = es ++ rest) :
    (s.drain es.length).afEntries = rest := by
  induction es generalizing s with
  | nil => exact h
  | cons e es ih => exact ih (s := s.applyEntry) (State.afEntries_afPop h).2

/-! ## The tick (45_audio.md R351) -/

/-- Where a tick stands with `n` entries left to apply. -/
def drainPhase (n : Nat) : AudPhase := if n = 0 then .clocking else .draining n

section Tick

variable {s : State}

/-- The sub-actions of a tick with `n` entries left apply them, clock the synthesizer and write the status bytes back. -/
theorem State.advanceN_tick {n : Nat} (h : s.audPhase = drainPhase n) : s.advanceN .aud (n + 1 + s.cfg.audio.roLen) =
    { (s.drain n).clockSynth.writeStatuses 0 s.cfg.audio.roLen with audPhase := .idle } := by
  have hdrain : s.advanceN .aud n = { s.drain n with audPhase := .clocking } := by
    rcases Nat.eq_zero_or_pos n with rfl | hn
    · have h : s.audPhase = .clocking := h
      rw [State.advanceN, State.drain, ← h]
    · exact State.advanceN_draining n s hn (h.trans (if_neg hn.ne'))
  have hclock : s.advanceN .aud (n + 1) = { (s.drain n).clockSynth with audPhase := statusPhase s.cfg 0 } := by
    rw [State.advanceN_add, hdrain, State.drain_frame]
    rfl
  have hcfg : (s.drain n).cfg = s.cfg := by rw [State.drain_frame]
  rw [State.advanceN_add, hclock, State.advanceN_status s.cfg.audio.roLen 0 _ ?_ ?_, State.writeStatuses_audPhase]
  · exact (Nat.zero_add _).trans (congrArg (fun c : Cfg => c.audio.roLen) hcfg.symm)
  · exact congrArg (statusPhase · 0) hcfg.symm

/-- Where the tick stands has no part in what its drain leaves. -/
theorem State.drain_audPhase (s : State) (n : Nat) (ph : AudPhase) :
    ({ s with audPhase := ph } : State).drain n = { s.drain n with audPhase := ph } := by
  rw [State.drain_eq, State.drain_eq n s]
  rfl

/-- A whole tick applies the entries of the FIFO, oldest first, and clocks the synthesizer once. -/
theorem State.tick_frame (s : State) : s.tick = { s with
    shadow := s.tick.shadow, afTail := s.afHead,
    synth := (Config.synthClock (s.afEntries.foldl synthApply s.synth) s.cfg.audio.cyclesPerSample).1,
    dacLevel := Config.pwmLevel (Config.synthClock (s.afEntries.foldl synthApply s.synth) s.cfg.audio.cyclesPerSample).2,
    dacLog := Config.pwmLevel (Config.synthClock (s.afEntries.foldl synthApply s.synth) s.cfg.audio.cyclesPerSample).2 ::
      s.dacLog } := by
  have htail : s.afTail + BitVec.ofNat 32 s.afCount.toNat = s.afHead := index_of_head s.afHead s.afTail
  have hdrain : s.drain s.afCount.toNat = { s with
      afTail := s.afHead, synth := s.afEntries.foldl synthApply s.synth } := by
    rw [State.drain_eq, htail]
    rfl
  unfold State.tick
  rw [State.writeStatuses_frame, hdrain]
  rfl

/-- The sub-actions of a tick, taken with nothing between, leave what the whole tick leaves. -/
theorem State.advanceN_wholeTick (hp : s.audPhase = .idle) :
    ({ s with audPhase := drainPhase s.afCount.toNat } : State).advanceN .aud (s.afCount.toNat + 1 + s.cfg.audio.roLen) =
      s.tick := by
  have hidle : s.tick.audPhase = .idle := by rw [State.tick_frame]; exact hp
  have hrun := State.advanceN_tick (s := { s with audPhase := drainPhase s.afCount.toNat }) rfl
  have hwrite := State.writeStatuses_audPhase s.cfg.audio.roLen 0 (s.drain s.afCount.toNat).clockSynth
    (drainPhase s.afCount.toNat)
  rw [State.drain_audPhase, ← hidle] at hrun
  exact hrun.trans (congrArg (fun t : State => { t with audPhase := s.tick.audPhase }) hwrite)

theorem statusAddr_toNat {c : Cfg} {i : Nat} (hc : c.wf = true) (hi : i < c.audio.roLen) :
    (statusAddr c i).toNat = c.audio.base.toNat + c.audio.woLen + i := by
  obtain ⟨-, -, -, -, -, -, -, hwindow, -⟩ := (Cfg.wf_iff c).1 hc
  simp only [statusAddr, BitVec.toNat_add, BitVec.toNat_ofNat]
  omega

/-- The status cells hold the status bytes after a tick, and no other cell has changed. -/
theorem State.readByte_tick (hc : s.cfg.wf = true) :
    (∀ i, i < s.cfg.audio.roLen → s.tick.readByte (statusAddr s.cfg i) = Config.synthStatus s.tick.synth i) ∧
    (∀ a, (∀ i, i < s.cfg.audio.roLen → a ≠ statusAddr s.cfg i) → s.tick.readByte a = s.readByte a) := by
  obtain ⟨-, -, -, -, -, -, -, hwindow, -⟩ := (Cfg.wf_iff s.cfg).1 hc
  have hcfg : (s.drain s.afCount.toNat).clockSynth.cfg = s.cfg := by rw [State.drain_frame]; rfl
  have hkeep (a : Addr) : (s.drain s.afCount.toNat).clockSynth.readByte a = s.readByte a := by
    rw [State.drain_frame]
    rfl
  have hsynth : s.tick.synth = (s.drain s.afCount.toNat).clockSynth.synth := by rw [State.tick, State.writeStatuses_frame]
  obtain ⟨hstatus, hother⟩ := State.readByte_writeStatuses s.cfg.audio.roLen 0 (s.drain s.afCount.toNat).clockSynth
    (by rw [hcfg]; omega)
  rw [hcfg] at hstatus hother
  refine ⟨fun i hi => ?_, fun a ha => (hother a fun i _ hi => ha i (by omega)).trans (hkeep a)⟩
  rw [hsynth]
  exact hstatus i (Nat.zero_le i) (by omega)

theorem State.admission_audioTick_armed (hp : s.audPhase = .idle) (ha : s.audioArmed = true) :
    s.admission .audioTick = .go := by
  simp [State.admission, State.admitTick, hp, ha]

theorem exec_audioTick (hf : s.fatal = none) (hp : s.audPhase = .idle) (ha : s.audioArmed = true) :
    exec .audioTick s = .next s.tick :=
  exec_go hf (State.admission_audioTick_armed hp ha)

theorem beginOp_audioTick (hf : s.fatal = none) (hp : s.audPhase = .idle) (ha : s.audioArmed = true) :
    beginOp .audioTick s = .next { s with audPhase := drainPhase s.afCount.toNat } :=
  beginOp_go hf (State.admission_audioTick_armed hp ha)

end Tick

/-! ## The path of a register write (45_audio.md R358) -/

theorem execAll_cons {i : Instr} {is : List Instr} {s t : State} (h : exec i s = .next t) :
    execAll (i :: is) s = execAll is t := by
  rw [execAll, h]

/-- A dispatch of a record of the audio range pushes the register's entry. -/
theorem State.dispatched_audio {s : State} {loc : Addr} (hloc : s.evSlot (s.resynced s.W) = loc)
    (hclass : classify s.cfg loc = .audio) : s.dispatched =
      { s.recordTaken.afPush (audioEntry s.cfg loc (s.readByte loc)) with
        irqPhase := .idle, results := (.irq, .handled loc .audio) :: s.results } := by
  rw [State.dispatched_eq hloc, State.applyEvent_audio (s := s.recordTaken) _ hclass, hclass]
  rfl

theorem State.afEntries_dispatched_audio {s : State} {loc : Addr} (hc : s.cfg.wf = true)
    (hloc : s.evSlot (s.resynced s.W) = loc) (hclass : classify s.cfg loc = .audio) (haf : s.afHead = s.afTail) :
    s.dispatched.afEntries = [audioEntry s.cfg loc (s.readByte loc)] := by
  obtain ⟨-, -, ⟨k, hcap⟩, -⟩ := (Cfg.wf_iff s.cfg).1 hc
  have hcount : s.recordTaken.afCount.toNat = 0 := by simp [State.recordTaken, State.afCount, haf]
  have hempty : s.recordTaken.afEntries = [] := List.length_eq_zero_iff.1 (s.recordTaken.afEntries_length.trans hcount)
  have hroom : s.recordTaken.afCount.toNat < s.recordTaken.cfg.afifoCap :=
    hcount.trans_lt (hcap.symm ▸ Nat.two_pow_pos k)
  have hpush := State.afEntries_afPush (s := s.recordTaken) hcap (audioEntry s.cfg loc (s.readByte loc)) hroom
    (hcount ▸ by decide)
  rw [hempty] at hpush
  rw [State.dispatched_audio hloc hclass]
  exact hpush

/-- A write to a writable cell leaves its record as the only unread one of an empty ring. -/
theorem State.unread_capture {s : State} {addr : Addr} (v : Byte) (hc : s.cfg.wf = true) (hpause : s.paused = false)
    (hRW : s.R = s.W) (hw : (s.permAt addr).getLsbD 1 = true) : (s.capture addr v).unread = [addr] := by
  obtain ⟨hcap, -, hdvd⟩ := evsCap_of_wf hc
  have hrec : AllRecorded s [(addr, v)] := ⟨hpause, fun p hp => by
    rw [List.mem_singleton.1 hp]
    exact Perm.qualifies_of_write _ hw⟩
  have hdrop : 1 - min 1 s.cfg.evsCap = 0 := by omega
  have hlast := State.unread_captures hrec hRW (Nat.one_lt_two_pow (by decide)) hdvd
  rwa [List.length_singleton, hdrop] at hlast

/-- From an empty ring and an empty FIFO, a write to a writable audio register and its dispatch leave the entry of the write as the
only one queued. -/
theorem execAll_write_dispatch_audio {s : State} {addr : Addr} (v : Byte) (h : HandlerReady s) (hc : s.cfg.wf = true)
    (hpause : s.paused = false) (hRW : s.R = s.W) (haf : s.afHead = s.afTail)
    (hclass : classify s.cfg addr = .audio) (hw : (s.permAt addr).getLsbD 1 = true) :
    ∃ u, (∀ is, execAll (.busWr addr v :: .eventDispatch :: is) s = execAll is u) ∧
      u = { s with
        shadow := u.shadow, evbuf := u.evbuf, W := u.W, R := u.R, afSlot := u.afSlot, afHead := u.afHead,
        results := (.irq, .handled addr .audio) :: s.results } ∧
      u.afEntries = [audioEntry s.cfg addr v] := by
  have hframe := State.capture_frame s addr v
  have hunread := State.unread_capture v hc hpause hRW hw
  obtain ⟨hloc, -⟩ := State.unread_cons hunread
  have hcfg : (s.capture addr v).cfg = s.cfg := by rw [hframe]
  have haf' : (s.capture addr v).afHead = (s.capture addr v).afTail := by rw [hframe]; exact haf
  have hready : HandlerReady (s.capture addr v) := by
    rw [hframe]
    exact ⟨h.fatal, h.irqPhase, h.irqEnabled, h.evsCap⟩
  have hread : (s.capture addr v).readByte addr = v := by
    rw [State.readByte_capture addr v hpause, if_pos ⟨rfl, hw⟩]
  refine ⟨(s.capture addr v).dispatched, fun is => ?run, ?frame, ?entries⟩
  case run =>
    have hdispatch : exec .eventDispatch (s.capture addr v) = .next (s.capture addr v).dispatched :=
      hready.execEventDispatch_record (State.R_ne_W_of_unread_cons hunread)
    exact (execAll_cons (exec_busWr addr v h.fatal)).trans (execAll_cons hdispatch)
  case frame =>
    rw [State.dispatched_audio hloc (hcfg ▸ hclass), State.afPush_frame, State.recordTaken, hframe, ← h.irqPhase]
  case entries =>
    rw [State.afEntries_dispatched_audio (hcfg ▸ hc) hloc (hcfg ▸ hclass) haf', hcfg, hread]

/-! ## AUDIO_INIT (45_audio.md R341) -/

section Init

variable {s : State} {f : Perm}

theorem State.setPerm_inside {base len : Nat} (h : base + len ≤ 65536) : s.setPerm f base len = s.setTags f base len :=
  if_neg (Nat.not_lt.2 h)

theorem State.setPerm_outside {base len : Nat} (h : 65536 < base + len) :
    s.setPerm f base len = s.raiseFatal (.permRange base len) := if_pos h

theorem State.audioInit_woOutside (h : 65536 < s.cfg.audio.base.toNat + s.cfg.audio.woLen) :
    s.audioInit = s.raiseFatal (.permRange s.cfg.audio.base.toNat s.cfg.audio.woLen) := by
  rw [State.audioInit, State.setPerm_outside h]
  rfl

/-- The tags of the write-only range written. -/
def State.woTags (s : State) : State := s.setTags Perm.tagWrite s.cfg.audio.base.toNat s.cfg.audio.woLen

/-- The tags of both audio ranges written. -/
def State.audioTags (s : State) : State :=
  s.woTags.setTags Perm.tagRead (s.cfg.audio.base.toNat + s.cfg.audio.woLen) s.cfg.audio.roLen

theorem State.permAt_woTags (s : State) (a : Addr) : s.woTags.permAt a =
    if s.cfg.audio.base.toNat ≤ a.toNat ∧ a.toNat < s.cfg.audio.base.toNat + s.cfg.audio.woLen then 0b010#3
    else s.permAt a :=
  State.permAt_setTags ..

theorem State.permAt_audioTags (s : State) (a : Addr) : s.audioTags.permAt a =
    if s.cfg.audio.base.toNat ≤ a.toNat ∧ a.toNat < s.cfg.audio.base.toNat + s.cfg.audio.woLen then 0b010#3
    else if s.cfg.audio.base.toNat + s.cfg.audio.woLen ≤ a.toNat ∧
        a.toNat < s.cfg.audio.base.toNat + s.cfg.audio.woLen + s.cfg.audio.roLen then 0b001#3
    else s.permAt a := by
  rw [State.audioTags, State.permAt_setTags, State.permAt_woTags]
  by_cases hwo : s.cfg.audio.base.toNat ≤ a.toNat ∧ a.toNat < s.cfg.audio.base.toNat + s.cfg.audio.woLen
  · rw [if_neg (by omega), if_pos hwo, if_pos hwo]
  · rw [if_neg hwo, if_neg hwo]
    rfl

theorem State.audioInit_roOutside (hf : s.fatal = none) (h : s.cfg.audio.base.toNat + s.cfg.audio.woLen ≤ 65536)
    (hro : 65536 < s.cfg.audio.base.toNat + s.cfg.audio.woLen + s.cfg.audio.roLen) :
    s.audioInit =
      s.woTags.raiseFatal (.permRange (s.cfg.audio.base.toNat + s.cfg.audio.woLen) s.cfg.audio.roLen) := by
  simp [State.audioInit, State.setPerm_inside h, State.setPerm_outside hro, State.raiseFatal, State.woTags, hf]

theorem State.audioInit_inside (hf : s.fatal = none)
    (h : s.cfg.audio.base.toNat + s.cfg.audio.woLen + s.cfg.audio.roLen ≤ 65536) :
    s.audioInit = { s.audioTags with synth := Config.synthReset, audioArmed := true } := by
  have hwo : s.cfg.audio.base.toNat + s.cfg.audio.woLen ≤ 65536 := by omega
  simp [State.audioInit, State.setPerm_inside hwo, State.setPerm_inside h, State.woTags, State.audioTags, hf]

/-- From a canonical state the cell sub-actions of a range write its tags. -/
theorem State.advanceN_setTags {a n : Nat} {k : FillThen} (hw : Sparse.wfFrom Perm.tagNone 0 s.perm = true) :
    ({ s with swPhase := fillPhase f a n k } : State).advanceN .sw n = { s.setTags f a n with swPhase := k.phase } := by
  rw [State.advanceN_fillPhase n rfl le_rfl, State.tagCells_swPhase, State.tagCells_eq_setTags s f n a hw, Nat.sub_self]
  rfl

/-- From a canonical state the sub-actions of an AUDIO_INIT in range write the tags of both ranges, reset the synthesizer and arm
the timer. -/
theorem State.advanceN_audioInit (hw : Sparse.wfFrom Perm.tagNone 0 s.perm = true)
    (h : s.cfg.audio.base.toNat + s.cfg.audio.woLen + s.cfg.audio.roLen ≤ 65536) :
    (s.fillStart Perm.tagWrite s.cfg.audio.base.toNat s.cfg.audio.woLen .initRo).advanceN .sw
        (s.cfg.audio.woLen + s.cfg.audio.roLen + 3) =
      { s.audioTags with synth := Config.synthReset, audioArmed := true, swPhase := .idle } := by
  have hwoRun : (s.fillStart Perm.tagWrite s.cfg.audio.base.toNat s.cfg.audio.woLen .initRo).advanceN .sw
      s.cfg.audio.woLen = { s.woTags with swPhase := .initRo } := by
    rw [State.fillStart_inside .initRo (by omega)]
    exact State.advanceN_setTags hw
  have hroStart : ({ s.woTags with swPhase := .initRo } : State).advanceN .sw 1 = { s.woTags with
      swPhase := fillPhase Perm.tagRead (s.cfg.audio.base.toNat + s.cfg.audio.woLen) s.cfg.audio.roLen .initSynth } :=
    State.fillStart_inside .initSynth h
  have hroRun : ({ s.woTags with
      swPhase := fillPhase Perm.tagRead (s.cfg.audio.base.toNat + s.cfg.audio.woLen) s.cfg.audio.roLen .initSynth } :
        State).advanceN .sw s.cfg.audio.roLen = { s.audioTags with swPhase := .initSynth } :=
    State.advanceN_setTags (Sparse.wfFrom_splice _ _ hw)
  have hcount : s.cfg.audio.woLen + s.cfg.audio.roLen + 3 = s.cfg.audio.woLen + 1 + s.cfg.audio.roLen + 2 := by omega
  rw [hcount, State.advanceN_add, State.advanceN_add, State.advanceN_add, hwoRun, hroStart, hroRun]
  rfl

theorem exec_audioInit (hf : s.fatal = none) (hp : s.swPhase = .idle) : exec .audioInit s = .next s.audioInit :=
  exec_go hf (State.admitSw_idle hp)

theorem beginOp_audioInit (hf : s.fatal = none) (hp : s.swPhase = .idle) : beginOp .audioInit s =
    .next (s.fillStart Perm.tagWrite s.cfg.audio.base.toNat s.cfg.audio.woLen .initRo) :=
  beginOp_go hf (State.admitSw_idle hp)

end Init

end Sys2Proof.Machine

namespace Sys2Proof.Proofs

open Sys2Proof.Machine

/-- Settles O20: in range AUDIO_INIT leaves `State.audioTags`, which its sub-actions reach (`State.advanceN_audioInit`); a range past
the window raises the code before any of its own tags is written. -/
theorem audioInitEffect : Obligations.AudioInitEffect := by
  intro s hf hp
  rw [exec_audioInit hf hp]
  refine ⟨fun hin => ?inside, fun hwo => ?woOutside, fun hwo hro => ?roOutside⟩
  case inside =>
    rw [State.audioInit_inside hf hin]
    refine ⟨_, rfl, rfl, State.permAt_audioTags s, fun hc => ⟨_, beginOp_audioInit hf hp, ?_⟩⟩
    rw [State.advanceN_audioInit (State.wfFrom_perm_of_canonical hc) hin, ← hp]
    rfl
  case woOutside =>
    rw [State.audioInit_woOutside hwo]
    rfl
  case roOutside =>
    rw [State.audioInit_roOutside hf hwo hro]
    exact ⟨_, rfl, rfl, State.permAt_woTags s⟩

/-- Settles O24: the dispatch applies the oldest record held (`State.dispatched_eq`), by the record's class. -/
theorem dispatchHandlesRecord : Obligations.DispatchHandlesRecord := by
  refine ⟨fun s hf hp he hRW => exec_eventDispatch_empty hf hp he hRW, ?_⟩
  intro s r loc v inAudio hf hp he hRW hr hloc hv hin
  have hr : r = s.resynced s.W := hr
  subst hr hv
  have hclass : inAudio ↔ classify s.recordTaken.cfg loc = .audio := hin.trans classify_eq_audio_iff.symm
  rw [exec_eventDispatch_record hf hp he hRW, State.dispatched_eq hloc.symm]
  refine ⟨_, classify s.cfg loc, rfl, ?frame, fun h => ?audio, fun h => ?notAudio, fun h ha => ?index, fun h ha hd => ?data,
    fun h ha hd => ?ignored⟩
  case frame =>
    rw [State.applyEvent_frame, ← hp]
    rfl
  case audio =>
    obtain ⟨hlo, hhi⟩ := hin.1 h
    rw [State.applyEvent_audio _ (hclass.1 h)]
    refine ⟨hclass.1 h, State.afPush_ttCrtcIdx .., State.afPush_ttStart .., State.afPush_ttCursor .., fun hfull => ?_,
      fun hroom => ⟨State.afPush_afHead_room (s := s.recordTaken) _ hroom, _, audioEntry_off (s.readByte loc) hlo hhi,
        State.afSlotAt_afPush_room (s := s.recordTaken) _ hroom⟩⟩
    rw [State.afPush_full (s := s.recordTaken) hfull]
    exact ⟨rfl, rfl⟩
  case notAudio => exact State.applyEvent_afifo _ (hclass.not.1 h)
  case index =>
    have hc : classify s.recordTaken.cfg loc = .crtcIndex := classify_eq_crtcIndex_iff.2 ⟨hclass.not.1 h, ha⟩
    rw [State.applyEvent_crtcIndex _ hc]
    exact ⟨hc, rfl, rfl, rfl⟩
  case data =>
    have hc : classify s.recordTaken.cfg loc = .crtcData := classify_eq_crtcData_iff.2 ⟨hclass.not.1 h, ha, hd⟩
    refine ⟨hc, State.applyEvent_ttCrtcIdx (s := s.recordTaken) _ (hc.trans_ne nofun), ?_⟩
    rw [State.applyEvent_crtcData _ hc]
    exact State.crtcData_halves _ s.recordTaken
  case ignored =>
    have hc : classify s.recordTaken.cfg loc = .ignored := classify_eq_ignored_iff.2 ⟨hclass.not.1 h, ha, hd⟩
    rw [State.applyEvent_ignored _ hc]
    exact ⟨hc, rfl, rfl, rfl⟩

/-- Settles O25: sub-action (3) applies the record with the byte its cell holds by then (`State.deliver_eq`), by the record's class. -/
theorem dispatchRereadsTheCell : Obligations.DispatchRereadsTheCell := by
  refine ⟨fun s r hf hp he hRW hr => ?sample, fun s w hp => State.irqAdvance_dispatching hp, ?deliver⟩
  case sample =>
    rw [beginOp_go hf (State.admission_eventDispatch_idle hp he), beginEffect, State.pollSample_record hRW, hr]
    rfl
  case deliver =>
    intro s t loc v inAudio hp hin ht
    have hread : (s.writeByte loc v).readByte loc = v := by rw [State.readByte_writeByte, if_pos rfl]
    have hadv := (State.irqAdvance_delivering (s := s.writeByte loc v) hp).trans (State.deliver_eq hread)
    have ht := ht.trans hadv
    have hclass : inAudio ↔ classify (s.writeByte loc v).cfg loc = .audio := hin.trans classify_eq_audio_iff.symm
    subst ht
    refine ⟨⟨classify s.cfg loc, ?frame⟩, fun h hroom => ?push, fun h => ?noPush, fun h ha => ?index, fun h => ?keepIndex,
      fun h ha hd => ?data, fun h => ?keepRegisters⟩
    case frame =>
      rw [State.applyEvent_frame]
      rfl
    case push =>
      rw [State.applyEvent_audio _ (hclass.1 h)]
      exact ⟨State.afPush_afHead_room (s := s.writeByte loc v) _ hroom, congrArg Entry.val
        ((State.afSlotAt_afPush_room (s := s.writeByte loc v) _ hroom s.afHead).trans (if_pos rfl))⟩
    case noPush =>
      by_cases hi : inAudio
      · rw [State.applyEvent_audio _ (hclass.1 hi), State.afPush_full (s := s.writeByte loc v) (h hi)]
        exact ⟨rfl, rfl⟩
      · exact State.applyEvent_afifo (s := s.writeByte loc v) _ (hclass.not.1 hi)
    case index =>
      rw [State.applyEvent_crtcIndex _ (classify_eq_crtcIndex_iff.2 ⟨hclass.not.1 h, ha⟩)]
    case keepIndex =>
      refine State.applyEvent_ttCrtcIdx (s := s.writeByte loc v) _ fun hc => ?_
      obtain ⟨hna, ha⟩ := classify_eq_crtcIndex_iff.1 hc
      exact h.elim (fun hi => hna (hclass.1 hi)) (fun hne => hne ha)
    case data =>
      rw [State.applyEvent_crtcData _ (classify_eq_crtcData_iff.2 ⟨hclass.not.1 h, ha, hd⟩)]
      exact State.crtcData_halves _ (s.writeByte loc v)
    case keepRegisters =>
      refine State.applyEvent_ttStart_ttCursor (s := s.writeByte loc v) _ fun hc => ?_
      obtain ⟨hna, hne, hd⟩ := classify_eq_crtcData_iff.1 hc
      rcases h with hi | ha | hnd
      · exact hna (hclass.1 hi)
      · exact hne ha
      · exact hnd hd

/-- Settles O51: the reset's entry is pushed like any other. -/
theorem audioResetPushesSentinel : Obligations.AudioResetPushesSentinel := by
  intro s hf hp he
  have hgo : s.admission .audioReset = .go := by simp [State.admission, State.admitIrqReset, hp, he]
  rw [exec_go hf hgo, effect]
  refine ⟨fun hfull => congrArg _ (State.afPush_full hfull), fun hroom => ⟨_, rfl, ?_, State.afSlotAt_afPush_room _ hroom⟩⟩
  rw [← State.afPush_afHead_room ⟨0#8, Config.sentinel⟩ hroom]
  exact State.afPush_frame _

/-- Settles O52: whole, a tick is `State.tick_frame` with the status bytes (`State.readByte_tick`); its sub-actions reach the same
state (`State.advanceN_wholeTick`). -/
theorem audioTickAppliesInArrivalOrder : Obligations.AudioTickAppliesInArrivalOrder := by
  intro s y smp hf hc hp ha hy hsmp
  have hy : y = s.afEntries.foldl synthApply s.synth := hy
  subst hy hsmp
  obtain ⟨hstatus, hother⟩ := State.readByte_tick hc
  exact ⟨_, exec_audioTick hf hp ha, s.tick_frame, hstatus, hother, fun i hi => statusAddr_toNat hc hi, _,
    beginOp_audioTick hf hp ha, State.advanceN_wholeTick hp⟩

/-- Settles O53: the tick applies as many entries as the FIFO held when it started, which leaves the late one
(`State.afEntries_drain`). -/
theorem lateEntriesWaitForTheNextTick : Obligations.LateEntriesWaitForTheNextTick := by
  intro s t0 e hf _ hc hp ha hroom hwrap hbegin
  obtain ⟨-, -, ⟨k, hcap⟩, -⟩ := (Cfg.wf_iff s.cfg).1 hc
  rw [beginOp_audioTick hf hp ha, ← State.afEntries_length] at hbegin
  cases hbegin
  rw [State.afEntries_length] at hroom hwrap
  have hpush := State.afEntries_afPush (s := { s with audPhase := drainPhase s.afEntries.length }) hcap e hroom hwrap
  have hrun := State.advanceN_tick (State.afPush_audPhase { s with audPhase := drainPhase s.afEntries.length } e)
  rw [State.afPush_cfg] at hrun
  rw [hrun]
  refine ⟨rfl, ?_⟩
  rw [State.writeStatuses_frame]
  exact State.afEntries_drain s.afEntries hpush

/-- Settles O54: a zero-extended byte is below the sentinel (`setWidth_ne_sentinel`). -/
theorem voiceResetKeepsRegisters : Obligations.VoiceResetKeepsRegisters := ⟨fun _ _ => rfl, setWidth_ne_sentinel⟩

/-- Settles O55: the write and its dispatch queue its entry (`execAll_write_dispatch_audio`), the tick applies it and writes the status
bytes back, and the bus read finds one of them. -/
theorem audioWriteReachesTheSynthesizer : Obligations.AudioWriteReachesTheSynthesizer := by
  intro s addr v i hf _ hc hpause hp he hidle harmed hRW haf hlen hlo hhi hw hi hread
  obtain ⟨u, hrun, hframe, hentries⟩ := execAll_write_dispatch_audio v ⟨hf, hp, he, (evsCap_of_wf hc).1⟩ hc hpause hRW haf
    (classify_eq_audio_iff.2 ⟨hlo, hhi⟩) hw
  have hcfg : u.cfg = s.cfg := by rw [hframe]
  have hsynth : u.synth = s.synth := by rw [hframe]
  have hfatal : u.fatal = none := by rw [hframe]; exact hf
  have htick : exec .audioTick u = .next u.tick :=
    exec_audioTick hfatal (by rw [hframe]; exact hidle) (by rw [hframe]; exact harmed)
  have hfatal' : u.tick.fatal = none := by rw [State.tick_frame]; exact hfatal
  have hdriven : u.tick.paused = false ∧ (u.tick.permAt (statusAddr s.cfg i)).getLsbD 0 = true := by
    rw [State.tick_frame, hframe]
    exact ⟨hpause, hread⟩
  have hbyte : u.tick.readByte (statusAddr s.cfg i) = Config.synthStatus u.tick.synth i :=
    hcfg ▸ (State.readByte_tick (hcfg ▸ hc)).1 i (hcfg ▸ hi)
  have hbusRd := exec_busRd (statusAddr s.cfg i) hfatal'
  rw [if_pos hdriven, hbyte] at hbusRd
  refine ⟨_, (hrun _).trans ((execAll_cons htick).trans (execAll_cons hbusRd)), ?synth, ?results⟩
  case synth =>
    have hsynth' := congrArg State.synth u.tick_frame
    rw [hentries, hcfg, hsynth] at hsynth'
    rw [← synthApply_audioEntry s.synth v hlo hhi hlen]
    exact hsynth'
  case results =>
    have hresults : u.tick.results = (.irq, .handled addr .audio) :: s.results := by
      rw [State.tick_frame, hframe]
    exact congrArg _ hresults

end Sys2Proof.Proofs

/-! The exceptions (60_exceptions.md), O9, O10, O11, O12, O27, O60. A refused issue and a waiting one are `exec_refused` and `exec_waits`
at the admission's answer. What a step leaves is one of `StepCase`'s states: for O12 each has no fatal code or a PERM_RANGE of a range
past the window, for O60 each differs from the state before in its agent's own pieces only. -/

namespace Sys2Proof.Machine

/-! ## Issues that are refused or wait (60_exceptions.md R384-R386) -/

section Admissions

variable {s : State} {i : Instr}

theorem exec_refused {why : RefuseReason} (hf : s.fatal = none) (ha : s.admission i = .refuse why) :
    exec i s = .next { s with refused := true } := by
  rw [exec_eq_issue, ha, issue_refuse hf]
  rfl

theorem exec_waits (hf : s.fatal = none) (ha : s.admission i = .wait) : exec i s = .next s := by
  rw [exec_eq_issue, ha, issue_wait hf]

theorem State.admitPoll_polling {w : Word32} {op : PollFor} (hp : s.irqPhase = .polling w op) :
    s.admitPoll = .refuse .reentrant := by
  simp only [State.admitPoll, hp]

theorem State.admitPoll_disabled (hp : s.irqPhase = .idle) (he : s.irqEnabled = false) : s.admitPoll = .wait := by
  simp [State.admitPoll, hp, he]

theorem State.admitIrqReset_disabled (he : s.irqEnabled = false) : s.admitIrqReset = .wait :=
  if_neg (by simp [he])

theorem State.admitRender_busy (hp : s.rendPhase ≠ .idle) : s.admitRender = .refuse .overlap := if_pos hp

theorem State.admitRender_empty (hp : s.rendPhase = .idle) (hq : s.rqHead = s.rqTail) : s.admitRender = .wait := by
  simp [State.admitRender, State.rqEmpty, State.rqCount, hp, hq]

theorem State.admitTick_busy (hp : s.audPhase ≠ .idle) : s.admitTick = .refuse .overlap := if_pos hp

theorem State.admitTick_unarmed (hp : s.audPhase = .idle) (ha : s.audioArmed = false) : s.admitTick = .wait := by
  simp [State.admitTick, hp, ha]

end Admissions

/-! ## The fatal state (60_exceptions.md R382) -/

theorem State.observation_of_fatal {s : State} {c : FatalCode} (h : s.fatal = some c) : s.observation = none := by
  have hended : ¬ s.ended = true := by simp [State.ended, State.clean, h]
  exact if_neg hended

/-! ## Taking the interrupt (60_exceptions.md R386, R389) -/

section TakeInterrupt

variable {s : State}

theorem State.takeInterrupt_taken (hRW : s.R ≠ s.W) (he : s.irqEnabled = true) (hp : s.irqPhase = .idle) :
    s.takeInterrupt = { s with irqService := true } :=
  if_pos (by simp [State.pending, hRW, he, hp])

theorem State.takeInterrupt_not_taken (h : s.R = s.W ∨ s.irqEnabled = false ∨ s.irqPhase ≠ .idle) :
    s.takeInterrupt = s := by
  refine if_neg ?_
  rcases h with hRW | he | hp
  · simp [State.pending, hRW]
  · simp [he]
  · simp [hp]

end TakeInterrupt

/-! ## Every step answers (60_exceptions.md R381, R383) -/

theorem beginOp_answers (i : Instr) {s : State} (hf : s.fatal = none) : ∃ t, beginOp i s = .next t := by
  rw [beginOp_eq_issue]
  cases s.admission i with
  | go => exact ⟨_, issue_go hf⟩
  | wait => exact ⟨_, issue_wait hf⟩
  | refuse why => exact ⟨_, issue_refuse hf⟩

theorem State.issueNext_answers {s : State} {run : Instr → State → Host.Outcome State Fault Refusal} (a : Agent)
    (hf : s.fatal = none) (hrun : ∀ i {u : State}, u.fatal = none → ∃ t, run i u = .next t) :
    ∃ t, s.issueNext a run = .next t := by
  cases hn : s.nextWord a with
  | none => exact ⟨s, by simp [State.issueNext, hn]⟩
  | some w =>
    cases hd : decode w with
    | invalid why => exact ⟨_, State.issueNext_invalid hn hd⟩
    | op i =>
      by_cases hi : i.agent = a
      · by_cases ha : s.admission i = .wait
        · exact ⟨s, State.issueNext_wait hn hd hi ha⟩
        · rw [State.issueNext_run hn hd hi ha]
          exact hrun i ((State.takeWord_fatal s a).trans hf)
      · exact ⟨_, State.issueNext_wrongAgent hn hd hi⟩

theorem State.move_answers {s : State} (a : Agent) (m : Move) (hf : s.fatal = none) : ∃ t, s.move a m = .next t := by
  cases m with
  | issue => exact State.issueNext_answers a hf exec_answers
  | start => exact State.issueNext_answers a hf beginOp_answers
  | advance | read _ | write _ | takeIrq => exact ⟨_, rfl⟩

theorem step_answers {s : State} (hf : s.fatal = none) : ∃ t, step s = .next t := by
  cases hs : s.sched with
  | nil => exact ⟨s, step_nil hf hs⟩
  | cons slot rest =>
    rw [step_cons hf hs]
    exact State.move_answers slot.agent slot.move hf

/-! ## The fatal codes an operation raises (60_exceptions.md R381, R389) -/

/-- PERM_RANGE is recorded, with operands whose range passes the end of the window. -/
def State.PermRangeRaised (t : State) : Prop :=
  ∃ base len, t.fatal = some (.permRange base len) ∧ 65536 < base + len

/-- The operations that write tags: SET_PERM and AUDIO_INIT. -/
def WritesTags (i : Instr) : Prop := i = .audioInit ∨ ∃ f b l, i = .setPerm f b l

section Raised

variable {s : State}

theorem State.permRangeRaised_raiseFatal {base len : Nat} (h : 65536 < base + len) :
    (s.raiseFatal (.permRange base len)).PermRangeRaised := ⟨base, len, rfl, h⟩

theorem State.setPerm_raises (f : Perm) (base len : Nat) (hf : s.fatal = none) :
    (s.setPerm f base len).fatal = none ∨ (s.setPerm f base len).PermRangeRaised := by
  rcases Nat.lt_or_ge 65536 (base + len) with h | h
  · rw [State.setPerm_outside h]
    exact .inr (State.permRangeRaised_raiseFatal h)
  · rw [State.setPerm_inside h]
    exact .inl hf

theorem State.fillStart_raises (f : Perm) (base len : Nat) (k : FillThen) (hf : s.fatal = none) :
    (s.fillStart f base len k).fatal = none ∨ (s.fillStart f base len k).PermRangeRaised := by
  rcases Nat.lt_or_ge 65536 (base + len) with h | h
  · rw [State.fillStart_outside k h]
    exact .inr ⟨base, len, rfl, h⟩
  · rw [State.fillStart_inside k h]
    exact .inl hf

theorem State.audioInit_raises (hf : s.fatal = none) : s.audioInit.fatal = none ∨ s.audioInit.PermRangeRaised := by
  rcases Nat.lt_or_ge 65536 (s.cfg.audio.base.toNat + s.cfg.audio.woLen) with hwo | hwo
  · rw [State.audioInit_woOutside hwo]
    exact .inr (State.permRangeRaised_raiseFatal hwo)
  · rcases Nat.lt_or_ge 65536 (s.cfg.audio.base.toNat + s.cfg.audio.woLen + s.cfg.audio.roLen) with hro | hro
    · rw [State.audioInit_roOutside hf hwo hro]
      exact .inr (State.permRangeRaised_raiseFatal hro)
    · rw [State.audioInit_inside hf hro]
      exact .inl hf

theorem State.swAdvance_raises (hf : s.fatal = none) : s.swAdvance.fatal = none ∨ s.swAdvance.PermRangeRaised := by
  unfold State.swAdvance
  split
  next => exact .inl hf
  next => exact .inl hf
  next => exact State.fillStart_raises _ _ _ _ hf
  next => exact .inl hf
  next => exact .inl hf

end Raised

/-! ### What raises no fatal code -/

section NotRaised

variable (s : State)

theorem State.capture_fatal (a : Addr) (v : Byte) : (s.capture a v).fatal = s.fatal := by rw [State.capture_frame]

theorem State.pollSample_fatal (op : PollFor) : (s.pollSample op).fatal = s.fatal := by rw [State.pollSample_frame]

theorem State.irqAdvance_fatal : s.irqAdvance.fatal = s.fatal := by rw [State.irqAdvance_frame]

theorem State.stepPop_fatal : s.stepPop.fatal = s.fatal := by rw [State.stepPop_frame]

theorem State.stepCommit_fatal (x : LineCtx) (rd : LineRead → Byte) : (s.stepCommit x rd).fatal = s.fatal := by
  rw [State.stepCommit_frame]

theorem State.stepFinish_fatal : s.stepFinish.fatal = s.fatal := by
  unfold State.stepFinish
  split
  · rfl
  · exact State.stepCommit_fatal ..

theorem State.rendRead_fatal (r : LineRead) : (s.rendRead r).fatal = s.fatal := by
  unfold State.rendRead
  split
  · rfl
  · split <;> rfl

theorem State.rendWrite_fatal (p : Nat) : (s.rendWrite p).fatal = s.fatal := by
  unfold State.rendWrite
  split
  · rfl
  · split <;> rfl

theorem State.rendAdvance_fatal : s.rendAdvance.fatal = s.fatal := by
  unfold State.rendAdvance
  split
  · rfl
  · split
    · exact State.rendRead_fatal ..
    · split
      · exact State.rendWrite_fatal ..
      · exact State.stepCommit_fatal ..

theorem State.tick_fatal : s.tick.fatal = s.fatal := by rw [State.tick_frame]

theorem State.audAdvance_fatal : s.audAdvance.fatal = s.fatal := by
  unfold State.audAdvance
  split <;> rfl

theorem State.takeInterrupt_fatal : s.takeInterrupt.fatal = s.fatal := by
  unfold State.takeInterrupt
  split <;> rfl

end NotRaised

/-! ### Operations, sub-actions, steps -/

section Operations

variable {s : State}

/-- The operations raise PERM_RANGE only, and only those that write tags raise it. -/
theorem effect_raises (i : Instr) (hf : s.fatal = none) :
    (effect i s).fatal = none ∨ WritesTags i ∧ (effect i s).PermRangeRaised := by
  cases i with
  | setPerm f base len => exact (State.setPerm_raises f _ _ hf).imp_right fun h => ⟨.inr ⟨f, base, len, rfl⟩, h⟩
  | audioInit => exact (State.audioInit_raises hf).imp_right fun h => ⟨.inl rfl, h⟩
  | busWr a v => exact .inl ((s.capture_fatal a v).trans hf)
  | pollEvent => exact .inl ((State.irqAdvance_fatal _).trans ((s.pollSample_fatal _).trans hf))
  | eventDispatch =>
    exact .inl ((State.irqAdvance_fatal _).trans ((State.irqAdvance_fatal _).trans ((s.pollSample_fatal _).trans hf)))
  | renderLine line => exact .inl ((s.rqPush_fatal _).trans hf)
  | renderLineVsync => exact .inl ((s.rqPush_fatal _).trans hf)
  | renderStep => exact .inl ((State.stepFinish_fatal _).trans (s.stepPop_fatal.trans hf))
  | audioTick => exact .inl (s.tick_fatal.trans hf)
  | audioReset => exact .inl ((s.afPush_fatal _).trans hf)
  | busRd | capPause | capResume | setIrqEnable | shadowRd | shadowWr | poolRead | setRenderer | setReveal => exact .inl hf

theorem beginEffect_raises (i : Instr) (hf : s.fatal = none) :
    (beginEffect i s).fatal = none ∨ (beginEffect i s).PermRangeRaised := by
  cases i with
  | setPerm => exact State.fillStart_raises _ _ _ _ hf
  | audioInit => exact State.fillStart_raises _ _ _ _ hf
  | pollEvent | eventDispatch => exact .inl ((s.pollSample_fatal _).trans hf)
  | renderStep => exact .inl (s.stepPop_fatal.trans hf)
  | audioTick => exact .inl hf
  | busWr | busRd | capPause | capResume | setIrqEnable | shadowRd | shadowWr | renderLine | renderLineVsync | poolRead
  | setRenderer | setReveal | audioReset => exact (effect_raises _ hf).imp_right And.right

theorem State.advance_raises (a : Agent) (hf : s.fatal = none) :
    (s.advance a).fatal = none ∨ (s.advance a).PermRangeRaised := by
  cases a with
  | bus | vid => exact .inl hf
  | sw => exact State.swAdvance_raises hf
  | irq => exact .inl (s.irqAdvance_fatal.trans hf)
  | rend => exact .inl (s.rendAdvance_fatal.trans hf)
  | aud => exact .inl (s.audAdvance_fatal.trans hf)

theorem StepCase.raises {a : Agent} {t : State} (hf : s.fatal = none) (hc : StepCase s a t) :
    t.fatal = none ∨ t.PermRangeRaised := by
  have hf' : (s.takeWord a).fatal = none := (State.takeWord_fatal s a).trans hf
  cases hc with
  | stay => exact .inl hf
  | refused why => exact .inl hf'
  | effect i => exact (effect_raises i hf').imp_right And.right
  | beginEffect i => exact beginEffect_raises i hf'
  | advance => exact State.advance_raises a hf
  | read r => exact .inl ((s.rendRead_fatal r).trans hf)
  | write p => exact .inl ((s.rendWrite_fatal p).trans hf)
  | takeIrq => exact .inl (s.takeInterrupt_fatal.trans hf)

theorem step_raises {t : State} (hs : step s = .next t) : t.fatal = none ∨ t.PermRangeRaised := by
  obtain ⟨hf, ⟨-, rfl⟩ | ⟨slot, rest, -, hc⟩⟩ := step_cases hs
  · exact .inl hf
  · exact StepCase.raises (s := { s with sched := rest }) hf hc

theorem exec_raises {i : Instr} {t : State} (hx : exec i s = .next t) :
    t.fatal = none ∨ WritesTags i ∧ t.PermRangeRaised := by
  rw [exec_eq_issue] at hx
  obtain ⟨hf, ⟨-, rfl⟩ | ⟨-, rfl⟩ | ⟨why, -, rfl⟩⟩ := issue_next hx
  · exact effect_raises i hf
  · exact .inl hf
  · exact .inl hf

end Operations

/-! ## The writers of each piece of state (60_exceptions.md R395) -/

/-- From `s` to `t` every piece of shared state that agent `a` does not write is as before. -/
structure WritesOnly (a : Agent) (s t : State) : Prop where
  shadow      : a ∉ [.bus, .sw, .aud] → t.shadow = s.shadow
  tags        : a ≠ .sw → t.perm = s.perm ∧ t.paused = s.paused
  ring        : a ≠ .bus → t.W = s.W ∧ t.evbuf = s.evbuf
  cursor      : a ≠ .irq → t.R = s.R
  requestHead : a ≠ .vid → t.rqHead = s.rqHead ∧ t.rqSlot = s.rqSlot
  requestTail : a ≠ .rend → t.rqTail = s.rqTail
  pool        : a ≠ .rend → t.pool = s.pool
  fifoHead    : a ≠ .irq → t.afHead = s.afHead ∧ t.afSlot = s.afSlot
  fifoTail    : a ≠ .aud → t.afTail = s.afTail
  latch       : a ≠ .irq → t.ttCrtcIdx = s.ttCrtcIdx ∧ t.ttStart = s.ttStart ∧ t.ttCursor = s.ttCursor
  controls    : a ≠ .sw → t.rendererCfg = s.rendererCfg ∧ t.reveal = s.reveal ∧ t.irqEnabled = s.irqEnabled
  frame       : a ≠ .rend → t.fc = s.fc ∧ t.rendererFrame = s.rendererFrame
  cfg         : t.cfg = s.cfg
  refused     : s.refused = true → t.refused = true

namespace WritesOnly

variable {a : Agent} {s t : State}

theorem refl (a : Agent) (s : State) : WritesOnly a s s :=
  ⟨fun _ => rfl, fun _ => ⟨rfl, rfl⟩, fun _ => ⟨rfl, rfl⟩, fun _ => rfl, fun _ => ⟨rfl, rfl⟩, fun _ => rfl, fun _ => rfl,
    fun _ => ⟨rfl, rfl⟩, fun _ => rfl, fun _ => ⟨rfl, rfl, rfl⟩, fun _ => ⟨rfl, rfl, rfl⟩, fun _ => ⟨rfl, rfl⟩, rfl, id⟩

/-! ### What every agent may do -/

theorem answer (h : WritesOnly a s t) (g : Agent) (r : Result) : WritesOnly a s (t.answer g r) := { h with }

theorem refuse (h : WritesOnly a s t) (why : RefuseReason) : WritesOnly a s (t.refuse why) :=
  { h with refused := fun _ => rfl }

theorem takeWord (h : WritesOnly a s t) : WritesOnly a s (t.takeWord a) := by
  rw [State.takeWord_frame]
  exact { h with }

theorem writeByte (h : WritesOnly a s t) (ha : a ∈ [.bus, .sw, .aud]) (loc : Addr) (v : Byte) :
    WritesOnly a s (t.writeByte loc v) :=
  { h with shadow := absurd ha }

/-! ### BUS and VID -/

theorem capture (h : WritesOnly .bus s t) (loc : Addr) (v : Byte) : WritesOnly .bus s (t.capture loc v) := by
  rw [State.capture_frame]
  exact { h with shadow := absurd (by decide), ring := absurd rfl }

theorem rqPush (h : WritesOnly .vid s t) (tok : Token) : WritesOnly .vid s (t.rqPush tok) := by
  rw [State.rqPush_frame]
  exact { h with requestHead := absurd rfl }

/-! ### SW -/

theorem setPerm (h : WritesOnly .sw s t) (f : Perm) (base len : Nat) : WritesOnly .sw s (t.setPerm f base len) := by
  rw [State.setPerm_frame]
  exact { h with tags := absurd rfl }

theorem audioInit (h : WritesOnly .sw s t) : WritesOnly .sw s t.audioInit := by
  rw [State.audioInit_frame]
  exact { h with tags := absurd rfl }

theorem fillStart (h : WritesOnly .sw s t) (f : Perm) (base len : Nat) (k : FillThen) :
    WritesOnly .sw s (t.fillStart f base len k) := by
  rw [State.fillStart_frame]
  exact { h with }

theorem swAdvance (h : WritesOnly .sw s t) : WritesOnly .sw s t.swAdvance := by
  rw [State.swAdvance_frame]
  exact { h with tags := absurd rfl }

/-! ### IRQ -/

theorem afPush (h : WritesOnly .irq s t) (e : Entry) : WritesOnly .irq s (t.afPush e) := by
  rw [State.afPush_frame]
  exact { h with fifoHead := absurd rfl }

theorem pollSample (h : WritesOnly .irq s t) (op : PollFor) : WritesOnly .irq s (t.pollSample op) := by
  rw [State.pollSample_frame]
  exact { h with cursor := absurd rfl }

theorem irqAdvance (h : WritesOnly .irq s t) : WritesOnly .irq s t.irqAdvance := by
  rw [State.irqAdvance_frame]
  exact { h with cursor := absurd rfl, fifoHead := absurd rfl, latch := absurd rfl }

theorem takeInterrupt (h : WritesOnly .irq s t) : WritesOnly .irq s t.takeInterrupt := by
  unfold State.takeInterrupt
  split
  · exact { h with }
  · exact h

/-! ### REND -/

theorem stepPop (h : WritesOnly .rend s t) : WritesOnly .rend s t.stepPop := by
  rw [State.stepPop_frame]
  exact { h with requestTail := absurd rfl, frame := absurd rfl }

theorem stepCommit (h : WritesOnly .rend s t) (x : LineCtx) (rd : LineRead → Byte) :
    WritesOnly .rend s (t.stepCommit x rd) := by
  rw [State.stepCommit_frame]
  exact { h with }

theorem writeLine (h : WritesOnly .rend s t) (slot : Nat) (px : List Pixel) : WritesOnly .rend s (t.writeLine slot px) :=
  { h with pool := absurd rfl }

theorem stepFinish (h : WritesOnly .rend s t) : WritesOnly .rend s t.stepFinish := by
  unfold State.stepFinish
  split
  · exact h
  · exact (h.writeLine _ _).stepCommit _ _

theorem rendRead (h : WritesOnly .rend s t) (r : LineRead) : WritesOnly .rend s (t.rendRead r) := by
  unfold State.rendRead
  split
  · exact h
  · split
    · exact { h with }
    · exact h

theorem rendWrite (h : WritesOnly .rend s t) (p : Nat) : WritesOnly .rend s (t.rendWrite p) := by
  unfold State.rendWrite
  split
  · exact h
  · split
    · exact { h with pool := absurd rfl }
    · exact h

theorem rendAdvance (h : WritesOnly .rend s t) : WritesOnly .rend s t.rendAdvance := by
  unfold State.rendAdvance
  split
  · exact h
  · split
    · exact h.rendRead _
    · split
      · exact h.rendWrite _
      · exact h.stepCommit _ _

/-! ### AUD -/

theorem tick (h : WritesOnly .aud s t) : WritesOnly .aud s t.tick := by
  rw [State.tick_frame]
  exact { h with shadow := absurd (by decide), fifoTail := absurd rfl }

theorem audAdvance (h : WritesOnly .aud s t) : WritesOnly .aud s t.audAdvance := by
  unfold State.audAdvance
  split
  next => exact h
  next => exact { h with fifoTail := absurd rfl }
  next => exact { h with }
  next i _ => exact { h.writeByte (by decide) (statusAddr t.cfg i) (Config.synthStatus t.synth i) with }

/-! ### Operations, sub-actions, steps -/

theorem effect {i : Instr} (h : WritesOnly i.agent s t) : WritesOnly i.agent s (effect i t) := by
  cases i with
  | busWr loc v => exact h.capture loc v
  | capPause | capResume => exact { h with tags := absurd rfl }
  | setIrqEnable | setRenderer | setReveal => exact { h with controls := absurd rfl }
  | setPerm f base len => exact h.setPerm f _ _
  | shadowWr loc v => exact WritesOnly.writeByte (a := .sw) h (by decide) loc v
  | pollEvent => exact (h.pollSample _).irqAdvance
  | eventDispatch => exact (h.pollSample _).irqAdvance.irqAdvance
  | renderLine | renderLineVsync => exact (h.rqPush _).answer _ _
  | renderStep => exact (h.stepPop).stepFinish
  | audioInit => exact h.audioInit
  | audioTick => exact h.tick
  | audioReset => exact h.afPush _
  | busRd | shadowRd | poolRead => exact h.answer _ _

theorem beginEffect {i : Instr} (h : WritesOnly i.agent s t) : WritesOnly i.agent s (beginEffect i t) := by
  cases i with
  | setPerm => exact h.fillStart _ _ _ _
  | audioInit => exact h.fillStart _ _ _ _
  | pollEvent | eventDispatch => exact h.pollSample _
  | renderStep => exact h.stepPop
  | audioTick => exact { h with }
  | busWr | busRd | capPause | capResume | setIrqEnable | shadowRd | shadowWr | renderLine | renderLineVsync | poolRead
  | setRenderer | setReveal | audioReset => exact h.effect

theorem advance (h : WritesOnly a s t) : WritesOnly a s (t.advance a) := by
  cases a with
  | bus | vid => exact h
  | sw => exact h.swAdvance
  | irq => exact h.irqAdvance
  | rend => exact h.rendAdvance
  | aud => exact h.audAdvance

theorem stepCase {u : State} (h : WritesOnly a s t) (hc : StepCase t a u) : WritesOnly a s u := by
  cases hc with
  | stay => exact h
  | refused why => exact h.takeWord.refuse why
  | effect i hi => subst hi; exact h.takeWord.effect
  | beginEffect i hi => subst hi; exact h.takeWord.beginEffect
  | advance => exact h.advance
  | read r ha => subst ha; exact h.rendRead r
  | write p ha => subst ha; exact h.rendWrite p
  | takeIrq ha => subst ha; exact h.takeInterrupt

/-- A step changes only what the agent it schedules writes. -/
theorem of_step {m : Move} {rest : List Slot} (hs : s.sched = ⟨a, m⟩ :: rest) (ht : step s = .next t) :
    WritesOnly a s t := by
  obtain ⟨-, ⟨hnil, -⟩ | ⟨slot, rest', hcons, hc⟩⟩ := step_cases ht
  · cases hs.symm.trans hnil
  · cases hs.symm.trans hcons
    exact stepCase (t := { s with sched := rest }) { refl a s with } hc

end WritesOnly

end Sys2Proof.Machine

namespace Sys2Proof.Proofs

open Sys2Proof.Machine

/-- Settles O12: a step and an operation answer (`step_answers`, `exec_answers`), and what they leave is `step_raises` and
`exec_raises`. -/
theorem onlyPermRangeIsFatal : Obligations.OnlyPermRangeIsFatal := by
  intro s hf
  refine ⟨?step, fun i => ?operation⟩
  case step =>
    obtain ⟨t, ht⟩ := step_answers hf
    exact ⟨t, ht, step_raises ht⟩
  case operation =>
    obtain ⟨t, ht⟩ := exec_answers i hf
    exact ⟨t, ht, exec_raises ht⟩

/-- Settles O60, by the cases of a step: each changes only its agent's pieces (`WritesOnly.of_step`). -/
theorem stepRespectsSingleWriters : Obligations.StepRespectsSingleWriters := by
  intro s t a m rest hs ht
  have h := WritesOnly.of_step hs ht
  exact ⟨h.shadow, h.tags, h.ring, h.cursor, h.requestHead, h.requestTail, h.pool, h.fifoHead, h.fifoTail, h.latch,
    h.controls, h.frame, h.cfg, h.refused⟩

/-- Settles O9: each issue's admission is a refusal (`exec_refused`). -/
theorem outOfTurnIssuesAreRefused : Obligations.OutOfTurnIssuesAreRefused := by
  refine ⟨fun s k x hf h => ?poolRead, fun s w op hf hp => ?poll, fun s hf hp => ?render, fun s hf hp => ?tick,
    fun s hf => ?selector⟩
  case poolRead => exact exec_poolRead_outside hf h
  case poll => exact ⟨exec_refused hf (State.admitPoll_polling hp), exec_refused hf (State.admitPoll_polling hp)⟩
  case render => exact exec_refused hf (State.admitRender_busy hp)
  case tick => exact exec_refused hf (State.admitTick_busy hp)
  case selector => exact exec_refused hf (why := .invalid) rfl

/-- Settles O10: each issue's admission is a wait (`exec_waits`). -/
theorem unmetPreconditionsWait : Obligations.UnmetPreconditionsWait := by
  refine ⟨fun s hf hp hq => ?render, fun s hf hp ha => ?tick, fun s hf hp he => ?irq⟩
  case render => exact exec_waits hf (State.admitRender_empty hp hq)
  case tick => exact exec_waits hf (State.admitTick_unarmed hp ha)
  case irq =>
    have hpoll := State.admitPoll_disabled hp he
    exact ⟨exec_waits hf hpoll, exec_waits hf hpoll, exec_waits hf (State.admitIrqReset_disabled he)⟩

/-- Settles O11: the step and every issue stop with the code, and a run in the fatal state has not ended
(`State.observation_of_fatal`). -/
theorem fatalStateIsQuiescent : Obligations.FatalStateIsQuiescent := by
  intro s c h
  have hexec (i : Instr) : exec i s = .fault (.halted c) := by rw [exec_eq_issue, issue_fatal h]
  exact ⟨step_fatal h, hexec, State.observation_of_fatal h⟩

/-- Settles O27: the step is the schedule entry's `State.takeInterrupt`. -/
theorem interruptIsTakenWhenPendingAndEnabled : Obligations.InterruptIsTakenWhenPendingAndEnabled := by
  intro s rest hf hs
  have hstep : step s = .next (State.takeInterrupt { s with sched := rest }) := step_cons hf hs
  refine ⟨fun hRW he hp => ?taken, fun h => ?notTaken⟩
  case taken => exact hstep.trans (congrArg _ (State.takeInterrupt_taken hRW he hp))
  case notTaken => exact hstep.trans (congrArg _ (State.takeInterrupt_not_taken h))

end Sys2Proof.Proofs

/-! Reset and the configuration check (70_reset_and_hazards.md R410, R411), O56, O57, O58. The check is said once per code it can record:
a capacity's under the capacities before it, a condition's under the capacities and the conditions before it. -/

namespace Sys2Proof

/-! ## The configuration check (00_scope.md R8) -/

/-- The check's test for "a power of two, at most 2^m". -/
theorem isPow2_and_le_iff (n m : Nat) : (isPow2 n && decide (n ≤ 2 ^ m)) = true ↔ ∃ k, k ≤ m ∧ n = 2 ^ k := by
  rw [Bool.and_eq_true, decide_eq_true_iff, isPow2_iff]
  constructor
  · rintro ⟨⟨k, rfl⟩, hle⟩
    exact ⟨k, (Nat.pow_le_pow_iff_right (by omega)).1 hle, rfl⟩
  · rintro ⟨k, hk, rfl⟩
    exact ⟨⟨k, rfl⟩, Nat.pow_le_pow_right (by omega) hk⟩

/-- The three queue capacities are powers of two, the EventStream's at most 2^31 (41_eventstream.md R160). -/
structure Cfg.Capacities (c : Cfg) : Prop where
  evs   : ∃ k, k ≤ 31 ∧ c.evsCap = 2 ^ k
  rq    : ∃ k, c.rqCap = 2 ^ k
  afifo : ∃ k, c.afifoCap = 2 ^ k

section Capacity

variable {c : Cfg}

theorem Cfg.evsCapOk_iff : c.evsCapOk = true ↔ ∃ k, k ≤ 31 ∧ c.evsCap = 2 ^ k := isPow2_and_le_iff c.evsCap 31

theorem Cfg.check_of_capacityFault {q : QueueName} (h : c.capacityFault = some q) : c.check = some (.capacity q) := by
  rw [Cfg.check, h]

theorem Cfg.check_evs (h : ¬∃ k, k ≤ 31 ∧ c.evsCap = 2 ^ k) : c.check = some (.capacity .evs) :=
  Cfg.check_of_capacityFault (by simp [Cfg.capacityFault, mt Cfg.evsCapOk_iff.1 h])

theorem Cfg.check_rq (hevs : ∃ k, k ≤ 31 ∧ c.evsCap = 2 ^ k) (h : ¬∃ k, c.rqCap = 2 ^ k) :
    c.check = some (.capacity .rq) :=
  Cfg.check_of_capacityFault (by simp [Cfg.capacityFault, Cfg.evsCapOk_iff.2 hevs, mt (isPow2_iff _).1 h])

theorem Cfg.check_afifo (hevs : ∃ k, k ≤ 31 ∧ c.evsCap = 2 ^ k) (hrq : ∃ k, c.rqCap = 2 ^ k)
    (h : ¬∃ k, c.afifoCap = 2 ^ k) : c.check = some (.capacity .afifo) :=
  Cfg.check_of_capacityFault (by
    simp [Cfg.capacityFault, Cfg.evsCapOk_iff.2 hevs, (isPow2_iff _).2 hrq, mt (isPow2_iff _).1 h])

theorem Cfg.Capacities.capacityFault (h : c.Capacities) : c.capacityFault = none := by
  simp [Cfg.capacityFault, Cfg.evsCapOk_iff.2 h.evs, (isPow2_iff _).2 h.rq, (isPow2_iff _).2 h.afifo]

theorem Cfg.Capacities.check {p : ConfigCond} (h : c.Capacities) (hp : c.conditionFault = some p) :
    c.check = some (.config p) := by
  rw [Cfg.check, h.capacityFault, hp]

end Capacity

section Condition

variable {c : Cfg}

theorem Cfg.nPool_test_iff : (c.nPool == 2 || c.nPool == 3 || c.nPool == 4) = true ↔ c.nPool ∈ [2, 3, 4] := by
  simp [or_assoc]

theorem Cfg.conditionFault_nPool (h : c.nPool ∉ [2, 3, 4]) : c.conditionFault = some .nPoolRange := by
  simp [Cfg.conditionFault, mt Cfg.nPool_test_iff.1 h]

variable (hpool : c.nPool ∈ [2, 3, 4])
include hpool

theorem Cfg.conditionFault_frameLinesMultiple (h : c.frameLines % c.nPool ≠ 0) :
    c.conditionFault = some .frameLinesMultiple := by
  simp [Cfg.conditionFault, Cfg.nPool_test_iff.2 hpool, h]

variable (hmul : c.frameLines % c.nPool = 0)
include hmul

theorem Cfg.conditionFault_frameLinesAtLeast (h : c.frameLines < c.nPool) :
    c.conditionFault = some .frameLinesAtLeast := by
  simp [Cfg.conditionFault, Cfg.nPool_test_iff.2 hpool, hmul, h]

variable (hle : c.nPool ≤ c.frameLines)
include hle

theorem Cfg.conditionFault_cursorPeriod (h : ¬∃ k, k ≤ 32 ∧ c.tt.cursorPeriod = 2 ^ k) :
    c.conditionFault = some .cursorPeriodPowerOf2 := by
  have htest := mt (isPow2_and_le_iff _ _).1 h
  simp only [Cfg.conditionFault, Cfg.nPool_test_iff.2 hpool, hmul, Nat.not_lt.2 hle, htest]
  simp

variable (hcursor : ∃ k, k ≤ 32 ∧ c.tt.cursorPeriod = 2 ^ k)
include hcursor

/-- With the conditions up to the cursor period met, the audio conditions decide: FLASH_PERIOD and FLASH_BLANK are constants that
meet theirs. -/
theorem Cfg.conditionFault_audio : c.conditionFault =
    if 65536 < c.audio.base.toNat + c.audio.woLen + c.audio.roLen then some .audioRangeInWindow
    else if c.audio.woLen = 0 then some .audioWoLenPositive else none := by
  have htest := (isPow2_and_le_iff _ _).2 hcursor
  simp only [Cfg.conditionFault, Cfg.nPool_test_iff.2 hpool, hmul, Nat.not_lt.2 hle, htest]
  simp [Config.flashPeriod, Config.flashBlank, Config.window]

end Condition

/-- The conditions under which the check passes, in the order it tests them. -/
theorem Cfg.check_eq_none_iff (c : Cfg) : c.check = none ↔
    (∃ k, k ≤ 31 ∧ c.evsCap = 2 ^ k) ∧ (∃ k, c.rqCap = 2 ^ k) ∧ (∃ k, c.afifoCap = 2 ^ k) ∧ c.nPool ∈ [2, 3, 4] ∧
    (c.frameLines % c.nPool = 0 ∧ c.nPool ≤ c.frameLines) ∧ (∃ k, k ≤ 32 ∧ c.tt.cursorPeriod = 2 ^ k) ∧
    c.audio.base.toNat + c.audio.woLen + c.audio.roLen ≤ 65536 ∧ 1 ≤ c.audio.woLen := by
  have hwf : c.check = none ↔ c.wf = true := beq_iff_eq.symm
  rw [hwf, Cfg.wf_iff]
  simp only [List.mem_cons, List.not_mem_nil, or_false, and_assoc, and_comm (a := _ ≤ _) (b := _ = 2 ^ _)]

end Sys2Proof

namespace Sys2Proof.Machine

/-! ## The state reset leaves (70_reset_and_hazards.md R410, R411) -/

theorem State.fatal_resetOf (c : Cfg) (d : Draws) : (State.resetOf c d).fatal = c.check := rfl

theorem State.permAt_resetOf (c : Cfg) (d : Draws) (a : Addr) : (State.resetOf c d).permAt a = Perm.tagNone := rfl

theorem State.quiet_resetOf (c : Cfg) (d : Draws) : (State.resetOf c d).quiet = true := rfl

theorem State.rqCount_resetOf (c : Cfg) (d : Draws) : (State.resetOf c d).rqCount.toNat = 0 := by
  simp [State.rqCount, State.resetOf]

theorem State.afCount_resetOf (c : Cfg) (d : Draws) : (State.resetOf c d).afCount.toNat = 0 := by
  simp [State.afCount, State.resetOf]

theorem State.rqTokens_resetOf (c : Cfg) (d : Draws) : (State.resetOf c d).rqTokens = [] := by
  rw [← List.length_eq_zero_iff, State.rqTokens_length, State.rqCount_resetOf]

/-- A configuration that fails the check leaves reset in the fatal state. -/
theorem State.configOk_resetOf (c : Cfg) (d : Draws) : (State.resetOf c d).configOk = true := by
  change (c.check == none || c.check.isSome) = true
  cases c.check <;> rfl

theorem Invariant.resetOf {c : Cfg} {d : Draws} (h : (State.resetOf c d).canonical = true) : Invariant (State.resetOf c d) := by
  simp only [State.canonical, Bool.and_eq_true, and_assoc] at h
  obtain ⟨shadow, perm, evbuf, rqSlot, pool, afSlot⟩ := h
  exact { shadow, perm, evbuf, rqSlot, pool, afSlot
          writingSlot := rfl
          fill := rfl
          tick := rfl
          rqCount := by simp [State.rqCount_resetOf]
          afCount := by simp [State.afCount_resetOf]
          config := State.configOk_resetOf c d
          tokens := by simp [State.rqTokens_resetOf]
          render := rfl
          row := rfl }

end Sys2Proof.Machine

namespace Sys2Proof.Proofs

open Sys2Proof.Machine

/-- Settles O57: the code recorded is the check's (`State.fatal_resetOf`), which passes as `Cfg.check_eq_none_iff` says and otherwise
records the first failing test's code. -/
theorem configCheckOrder : Obligations.ConfigCheckOrder := by
  intro c d evs rq af pool frame cursor range hevs hrq haf hpool hframe hcursor hrange
  rw [State.fatal_resetOf]
  refine ⟨?passes, fun h => ?evs, fun h₁ h => ?rq, fun h₁ h₂ h => ?af, fun h₁ h₂ h₃ => ?conditions⟩
  case passes => rw [Cfg.check_eq_none_iff, hevs, hrq, haf, hpool, hframe, hcursor, hrange]
  case evs => exact Cfg.check_evs (mt hevs.2 h)
  case rq => exact Cfg.check_rq (hevs.1 h₁) (mt hrq.2 h)
  case af => exact Cfg.check_afifo (hevs.1 h₁) (hrq.1 h₂) (mt haf.2 h)
  case conditions =>
    have hcap : c.Capacities := ⟨hevs.1 h₁, hrq.1 h₂, haf.1 h₃⟩
    refine ⟨fun h => hcap.check ?pool, fun hp h => hcap.check ?multiple, fun hp hm h => hcap.check ?atLeast,
      fun hp hf h => hcap.check ?cursor, fun hp hf hc h => hcap.check ?range, fun hp hf hc hr h => hcap.check ?woLen⟩
    case pool => exact Cfg.conditionFault_nPool (mt hpool.2 h)
    case multiple => exact Cfg.conditionFault_frameLinesMultiple (hpool.1 hp) h
    case atLeast => exact Cfg.conditionFault_frameLinesAtLeast (hpool.1 hp) hm h
    case cursor =>
      obtain ⟨hm, hle⟩ := hframe.1 hf
      exact Cfg.conditionFault_cursorPeriod (hpool.1 hp) hm hle (mt hcursor.2 h)
    case range =>
      obtain ⟨hm, hle⟩ := hframe.1 hf
      have hout : 65536 < c.audio.base.toNat + c.audio.woLen + c.audio.roLen := Nat.lt_of_not_le (mt hrange.2 h)
      rw [Cfg.conditionFault_audio (hpool.1 hp) hm hle (hcursor.1 hc), if_pos hout]
    case woLen =>
      obtain ⟨hm, hle⟩ := hframe.1 hf
      rw [Cfg.conditionFault_audio (hpool.1 hp) hm hle (hcursor.1 hc), if_neg (Nat.not_lt.2 (hrange.1 hr)), if_pos h]

/-- Settles O56: `State.resetOf` writes each value out, and its tags are an empty storage (`State.permAt_resetOf`). -/
theorem resetValues : Obligations.ResetValues := by
  intro c d
  refine ⟨State.resetOf c d, rfl, rfl, State.permAt_resetOf c d, ?values⟩
  case values =>
    rw [State.quiet_resetOf, State.fatal_resetOf]
    simp [State.resetOf]

/-- Settles O58: every part of the invariant but the draws' canonical form is about values reset fixes (`Invariant.resetOf`); the
draws of `State.reset` list nothing. -/
theorem invariantHoldsAtReset : Obligations.InvariantHoldsAtReset := by
  have hinv {c : Cfg} {d : Draws} (h : (State.resetOf c d).canonical = true) : (State.resetOf c d).inv = true :=
    (State.inv_iff _).2 (Invariant.resetOf h)
  exact ⟨hinv (c := Cfg.tc0) (d := Draws.zero) rfl, fun _ _ h => hinv h⟩

end Sys2Proof.Proofs

namespace Sys2Proof

/-- `decode_encode` at a word written out as a number. -/
theorem decode_of_encode_eq {w : Txn} {i : Instr} (hw : encode i = w) (hwf : i.wellFormed = true) : decode w = .op i :=
  hw ▸ decode_encode hwf

end Sys2Proof

namespace Sys2Proof.Proofs

/-- Settles O4: seven of the words are their operations' words (`decode_of_encode_eq`); the last has BUS_WR's OP value and matches
no row of it, as its F field is not 0, so it is Invalid by O5. -/
theorem workedWordsDecode : Obligations.WorkedWordsDecode := by
  obtain ⟨-, decode_uncovered, -⟩ := wordsThatSpellNoOperationAreRefused
  refine ⟨?busWr, ?setPerm, ?eventDispatch, ?renderLine, ?poolRead, ?setRenderer, ?audioReset, ?mustBeZero⟩
  case mustBeZero => exact decode_uncovered _ (by decide) (by decide)
  all_goals exact decode_of_encode_eq (by decide) rfl

end Sys2Proof.Proofs
